-- ==== Sys2Proof/Word.lean ====
section
/-! DEFINITION. The words of the block and the operand kinds its command fields select (spec/00_scope.md R8, R9;
spec/30_encoding.md R92). -/

namespace Sys2Proof

/-- One byte of a buffer or of a frame (00_scope.md R9). -/
abbrev Byte := BitVec 8

/-- A 32-bit register or command word (00_scope.md R7, REG_WIDTH and CMD_WIDTH). -/
abbrev Word := BitVec 32

/-- The BUF field of LRC and VERIFY, and the two buffers of the block (30_encoding.md R92; 10_state.md R36, R37). -/
inductive Buf where
  /-- BUF = 0. -/
  | pbuf
  /-- BUF = 1. -/
  | fbuf
deriving DecidableEq, Repr

/-- The SRC field of NUMENC (30_encoding.md R92). -/
inductive NumSrc where
  /-- SRC = 0: the value is OPA. -/
  | opa
  /-- SRC = 1: the value is RES. -/
  | res
deriving DecidableEq, Repr

/-- The RMODE field of MINOR (30_encoding.md R92). -/
inductive RMode where
  /-- RMODE = 0: nearest, ties away from zero. -/
  | half
  /-- RMODE = 1: away from zero. -/
  | away
deriving DecidableEq, Repr

/-- The PADZ field of PAD (30_encoding.md R92). -/
inductive PadChar where
  /-- PADZ = 0: pad with a space, 0x20. -/
  | space
  /-- PADZ = 1: pad with the digit 0, 0x30. -/
  | zero
deriving DecidableEq, Repr

/-- The RJUST field of PAD (30_encoding.md R92). -/
inductive Justify where
  /-- RJUST = 0: the source on the left, padding on the right. -/
  | left
  /-- RJUST = 1: the source on the right, padding on the left. -/
  | right
deriving DecidableEq, Repr

end Sys2Proof
end

