-- ==== Sys2Proof/Config.lean ====
section
/-! DEFINITION. The parameters of the block (spec/00_scope.md R7), each literal once under its own name
(spec/93_implementation_defined.md S4), the two OPEN parameters, and the free draw of an unwritten buffer byte. -/

namespace Sys2Proof.Config

/-- MAX_PAYLOAD (00_scope.md R7). -/
abbrev maxPayload : Nat := 9999

/-- FRAME_OVERHEAD, and the least frame DECODE accepts (00_scope.md R7; 40_frame_codec.md R128). -/
abbrev frameOverhead : Nat := 5

/-- The largest value of the four BCD digits of a length (00_scope.md R7, BCD_DIGITS). -/
abbrev maxBcd : Nat := 9999

/-- BUF_SIZE, for PBUF and FBUF each (00_scope.md R7). -/
abbrev bufSize : Nat := 16384

/-- WINDOW, the number of byte offsets (00_scope.md R7). -/
abbrev window : Nat := 65536

/-- The first window offset of PBUF (20_memory.md R61). -/
abbrev pbufBase : Nat := 0x4000

/-- The first window offset of FBUF (20_memory.md R61). -/
abbrev fbufBase : Nat := 0x8000

/-- The first window offset of the reserved region (20_memory.md R61). -/
abbrev reservedBase : Nat := 0xC000

/-- AMOUNT_WIDTH (00_scope.md R7). -/
abbrev amountWidth : Nat := 12

/-- DATE_WIDTH (00_scope.md R7). -/
abbrev dateWidth : Nat := 14

/-- ECR_REF_WIDTH (00_scope.md R7). -/
abbrev ecrRefWidth : Nat := 20

/-- TLV_HEADER (00_scope.md R7). -/
abbrev tlvHeader : Nat := 5

/-- STX, the start marker (00_scope.md R3, R13). -/
abbrev stx : Byte := 0x02

/-- ETX, the end marker (00_scope.md R3, R13). -/
abbrev etx : Byte := 0x03

/-- ACK (10_state.md R33; 00_scope.md R13). -/
abbrev ack : Byte := 0x06

/-- NAK (10_state.md R33; 00_scope.md R13). -/
abbrev nak : Byte := 0x15

/-- The character 0 (00_scope.md R11). -/
abbrev charZero : Byte := 0x30

/-- The character 9 (00_scope.md R11). -/
abbrev charNine : Byte := 0x39

/-- The space character (00_scope.md R11). -/
abbrev charSpace : Byte := 0x20

/-- The NUL character (00_scope.md R11). -/
abbrev charNul : Byte := 0x00

/-- The constant of the ID register (10_state.md R21). -/
abbrev idValue : Word := 0x46434D07

/-- FCM_BASE, OPEN: the host bus address of window offset 0 (00_scope.md R7; 93_implementation_defined.md U3).
DESIGN CHOICE of form, log 9: an opaque constant, so no proof can use a value of it. Safe. -/
opaque fcmBase : Nat

/-- The bus address at which the host reaches a window offset (20_memory.md R60). -/
def busAddress (offset : BitVec 16) : Nat := fcmBase + offset.toNat

/-- AMOUNT_RMODE, OPEN: the RMODE bit that the AMTENC pseudo-instruction selects, 0 for half and 1 for away
(00_scope.md R7; 93_implementation_defined.md U4). DESIGN CHOICE of form, log 9: an opaque constant. Safe. -/
opaque amountRmode : BitVec 1

/-- A buffer byte that nothing has written since power-on: a free draw, one value for the byte at a window offset until
the contents become unspecified again (10_state.md R38; 93_implementation_defined.md U1). The first argument counts how
often they have, the second is the byte's window offset. DESIGN CHOICE, log 1: the draw, not the refusal that R38 also
allows. Safe: a claim holds whatever the byte is. -/
opaque powerOnByte : Nat → Nat → Byte

end Sys2Proof.Config
end

