-- ==== Sys2Proof/Syntax.lean ====
section
/-! DEFINITION. The commands of the block as syntax: one constructor for each row of spec/opcode_table.json
(spec/30_encoding.md R91, R92, R94). -/

namespace Sys2Proof

/-- A command with its fields (30_encoding.md R94). ADDR is a PBUF index of 14 bits, WIDTH has 5 bits in format W
and 8 bits in formats P and F, SCALE has 5 bits (R91, R93). -/
inductive Instr where
  /-- NOP, format N (40_frame_codec.md R120). -/
  | nop
  /-- ENCODE, format N (40_frame_codec.md R122). -/
  | encode
  /-- DECODE, format N (40_frame_codec.md R127). -/
  | decode
  /-- CHECK, format N (40_frame_codec.md R135). -/
  | check
  /-- LRC, format R (42_checksum.md R171). -/
  | lrc (buf : Buf)
  /-- VERIFY, format R (42_checksum.md R174). -/
  | verify (buf : Buf)
  /-- BCDENC, format N (41_bcd.md R153). -/
  | bcdenc
  /-- BCDDEC, format N (41_bcd.md R156). -/
  | bcddec
  /-- BCDST, format A (41_bcd.md R159). -/
  | bcdst (addr : BitVec 14)
  /-- BCDLD, format A (41_bcd.md R162). -/
  | bcdld (addr : BitVec 14)
  /-- NUMENC, format W (43_field_marshal.md R190). -/
  | numenc (src : NumSrc) (width : BitVec 5) (addr : BitVec 14)
  /-- NUMDEC, format W with SRC reserved (43_field_marshal.md R194). -/
  | numdec (width : BitVec 5) (addr : BitVec 14)
  /-- MINOR, format S (43_field_marshal.md R198). -/
  | minor (rmode : RMode) (scale : BitVec 5)
  /-- PAD, format P (43_field_marshal.md R204). -/
  | pad (rjust : Justify) (padz : PadChar) (width : BitVec 8) (addr : BitVec 14)
  /-- FLDLEN, format F (43_field_marshal.md R210). -/
  | fldlen (width : BitVec 8) (addr : BitVec 14)
  /-- DATEENC, format A (43_field_marshal.md R218). -/
  | dateenc (addr : BitVec 14)
  /-- DATEDEC, format A (43_field_marshal.md R222). -/
  | datedec (addr : BitVec 14)
  /-- TLVNEXT, format N (43_field_marshal.md R228). -/
  | tlvnext
deriving DecidableEq, Repr

end Sys2Proof
end

