-- ==== Sys2Proof/WellFormed.lean ====
section
/-! DEFINITION. Which commands have legal field values (spec/30_encoding.md R97). -/

namespace Sys2Proof

/-- The WIDTH of NUMENC and NUMDEC is 1 to 20 (30_encoding.md R97). -/
abbrev numWidthLegal (width : BitVec 5) : Prop := 1 ≤ width.toNat ∧ width.toNat ≤ 20

/-- The SCALE of MINOR is at most 19 (30_encoding.md R97). -/
abbrev scaleLegal (scale : BitVec 5) : Prop := scale.toNat ≤ 19

/-- The WIDTH of PAD and FLDLEN is not 0 (30_encoding.md R97). -/
abbrev fieldWidthLegal (width : BitVec 8) : Prop := 1 ≤ width.toNat

/-- A command whose field values are legal (30_encoding.md R97). As a Bool, so that it can be evaluated. -/
def wellFormed : Instr → Bool
  | .nop => true
  | .encode => true
  | .decode => true
  | .check => true
  | .lrc _ => true
  | .verify _ => true
  | .bcdenc => true
  | .bcddec => true
  | .bcdst _ => true
  | .bcdld _ => true
  | .numenc _ width _ => decide (numWidthLegal width)
  | .numdec width _ => decide (numWidthLegal width)
  | .minor _ scale => decide (scaleLegal scale)
  | .pad _ _ width _ => decide (fieldWidthLegal width)
  | .fldlen width _ => decide (fieldWidthLegal width)
  | .dateenc _ => true
  | .datedec _ => true
  | .tlvnext => true

/-- `wellFormed` as a proposition. -/
abbrev WellFormed (i : Instr) : Prop := wellFormed i = true

end Sys2Proof
end

