-- ==== Sys2Proof/Decode.lean ====
section
/-! DEFINITION. The decoder of a command word, the encoder, the opcode table and the pseudo-instructions
(spec/30_encoding.md R90 to R101). -/

namespace Sys2Proof

/-- Why a word is no command. Each reason is reported as ILLEGAL_CMD by the completion (30_encoding.md R95 to R97). -/
inductive IllegalWord where
  /-- OP is 0x12 to 0x1F (30_encoding.md R96). -/
  | reservedOpcode
  /-- A bit that the format reserves is 1 (30_encoding.md R95). -/
  | reservedBits
  /-- WIDTH or SCALE is outside its legal range (30_encoding.md R97). -/
  | fieldValue
deriving DecidableEq, Repr

/-- BUF, one bit (30_encoding.md R92). -/
def bufOfBit (b : BitVec 1) : Buf := if b = 1 then .fbuf else .pbuf

/-- The bit of BUF (30_encoding.md R92). -/
def bufBit : Buf → BitVec 1
  | .pbuf => 0
  | .fbuf => 1

/-- SRC, one bit (30_encoding.md R92). -/
def srcOfBit (b : BitVec 1) : NumSrc := if b = 1 then .res else .opa

/-- The bit of SRC (30_encoding.md R92). -/
def srcBit : NumSrc → BitVec 1
  | .opa => 0
  | .res => 1

/-- RMODE, one bit (30_encoding.md R92). -/
def rmodeOfBit (b : BitVec 1) : RMode := if b = 1 then .away else .half

/-- The bit of RMODE (30_encoding.md R92). -/
def rmodeBit : RMode → BitVec 1
  | .half => 0
  | .away => 1

/-- PADZ, one bit (30_encoding.md R92). -/
def padzOfBit (b : BitVec 1) : PadChar := if b = 1 then .zero else .space

/-- The bit of PADZ (30_encoding.md R92). -/
def padzBit : PadChar → BitVec 1
  | .space => 0
  | .zero => 1

/-- RJUST, one bit (30_encoding.md R92). -/
def rjustOfBit (b : BitVec 1) : Justify := if b = 1 then .right else .left

/-- The bit of RJUST (30_encoding.md R92). -/
def rjustBit : Justify → BitVec 1
  | .left => 0
  | .right => 1

/-- OP = [31:27] (30_encoding.md R91). -/
def opField (c : Word) : BitVec 5 := c.extractLsb' 27 5

/-- ADDR = [13:0] in formats A, W, P and F (30_encoding.md R91). -/
def addrField (c : Word) : BitVec 14 := c.extractLsb' 0 14

/-- WIDTH = [18:14] in format W (30_encoding.md R91). -/
def width5Field (c : Word) : BitVec 5 := c.extractLsb' 14 5

/-- WIDTH = [21:14] in formats P and F (30_encoding.md R91). -/
def width8Field (c : Word) : BitVec 8 := c.extractLsb' 14 8

/-- SCALE = [4:0] in format S (30_encoding.md R91). -/
def scaleField (c : Word) : BitVec 5 := c.extractLsb' 0 5

/-- The single bit at a position (30_encoding.md R91: BUF [0], RMODE [5], SRC [19], PADZ [22], RJUST [23]). -/
def bitField (c : Word) (position : Nat) : BitVec 1 := c.extractLsb' position 1

/-- A word whose reserved bits are 0 is the command, else it is illegal (30_encoding.md R95). -/
def requireZero {n : Nat} (reserved : BitVec n) (i : Instr) : Except IllegalWord Instr :=
  if reserved = 0 then .ok i else .error .reservedBits

/-- A command whose field values are legal stays, else the word is illegal (30_encoding.md R97, R99). -/
def requireLegal (r : Except IllegalWord Instr) : Except IllegalWord Instr :=
  match r with
  | .ok i => if wellFormed i then .ok i else .error .fieldValue
  | .error e => .error e

/-- A word read by the format its OP selects, with the format's reserved bits checked (30_encoding.md R91, R94). -/
def decodeFormat (c : Word) : Except IllegalWord Instr :=
  match (opField c).toNat with
  | 0x00 => requireZero (c.extractLsb' 0 27) .nop
  | 0x01 => requireZero (c.extractLsb' 0 27) .encode
  | 0x02 => requireZero (c.extractLsb' 0 27) .decode
  | 0x03 => requireZero (c.extractLsb' 0 27) .check
  | 0x04 => requireZero (c.extractLsb' 1 26) (.lrc (bufOfBit (bitField c 0)))
  | 0x05 => requireZero (c.extractLsb' 1 26) (.verify (bufOfBit (bitField c 0)))
  | 0x06 => requireZero (c.extractLsb' 0 27) .bcdenc
  | 0x07 => requireZero (c.extractLsb' 0 27) .bcddec
  | 0x08 => requireZero (c.extractLsb' 14 13) (.bcdst (addrField c))
  | 0x09 => requireZero (c.extractLsb' 14 13) (.bcdld (addrField c))
  | 0x0A => requireZero (c.extractLsb' 20 7) (.numenc (srcOfBit (bitField c 19)) (width5Field c) (addrField c))
  | 0x0B => requireZero (c.extractLsb' 19 8) (.numdec (width5Field c) (addrField c))
  | 0x0C => requireZero (c.extractLsb' 6 21) (.minor (rmodeOfBit (bitField c 5)) (scaleField c))
  | 0x0D => requireZero (c.extractLsb' 24 3)
      (.pad (rjustOfBit (bitField c 23)) (padzOfBit (bitField c 22)) (width8Field c) (addrField c))
  | 0x0E => requireZero (c.extractLsb' 22 5) (.fldlen (width8Field c) (addrField c))
  | 0x0F => requireZero (c.extractLsb' 14 13) (.dateenc (addrField c))
  | 0x10 => requireZero (c.extractLsb' 14 13) (.datedec (addrField c))
  | 0x11 => requireZero (c.extractLsb' 0 27) .tlvnext
  | _ => .error .reservedOpcode

/-- The decoder: a total function from 32-bit words to a command with its fields or a named reason why the word is
illegal (30_encoding.md R99). -/
def decode (c : Word) : Except IllegalWord Instr := requireLegal (decodeFormat c)

/-- The encoder: the command word, its fields laid out from bit 31 down to bit 0 as R91 tabulates them
(30_encoding.md R91, R94, R100). -/
def encode : Instr → Word
  | .nop => 0x00#5 ++ 0#27
  | .encode => 0x01#5 ++ 0#27
  | .decode => 0x02#5 ++ 0#27
  | .check => 0x03#5 ++ 0#27
  | .lrc b => 0x04#5 ++ 0#26 ++ bufBit b
  | .verify b => 0x05#5 ++ 0#26 ++ bufBit b
  | .bcdenc => 0x06#5 ++ 0#27
  | .bcddec => 0x07#5 ++ 0#27
  | .bcdst addr => 0x08#5 ++ 0#13 ++ addr
  | .bcdld addr => 0x09#5 ++ 0#13 ++ addr
  | .numenc src width addr => 0x0A#5 ++ 0#7 ++ srcBit src ++ width ++ addr
  | .numdec width addr => 0x0B#5 ++ 0#8 ++ width ++ addr
  | .minor rmode scale => 0x0C#5 ++ 0#21 ++ rmodeBit rmode ++ scale
  | .pad rjust padz width addr => 0x0D#5 ++ 0#3 ++ rjustBit rjust ++ padzBit padz ++ width ++ addr
  | .fldlen width addr => 0x0E#5 ++ 0#5 ++ width ++ addr
  | .dateenc addr => 0x0F#5 ++ 0#13 ++ addr
  | .datedec addr => 0x10#5 ++ 0#13 ++ addr
  | .tlvnext => 0x11#5 ++ 0#27

/-- A row of the opcode map: OP, mnemonic, match and mask (30_encoding.md R94). -/
structure OpcodeRow where
  op : Nat
  mnemonic : String
  matchBits : Word
  maskBits : Word
deriving DecidableEq, Repr

/-- The opcode map, row by row as R94 prints it (30_encoding.md R94). -/
def opcodeTable : List OpcodeRow :=
  [⟨0x00, "NOP", 0x00000000, 0xFFFFFFFF⟩,
   ⟨0x01, "ENCODE", 0x08000000, 0xFFFFFFFF⟩,
   ⟨0x02, "DECODE", 0x10000000, 0xFFFFFFFF⟩,
   ⟨0x03, "CHECK", 0x18000000, 0xFFFFFFFF⟩,
   ⟨0x04, "LRC", 0x20000000, 0xFFFFFFFE⟩,
   ⟨0x05, "VERIFY", 0x28000000, 0xFFFFFFFE⟩,
   ⟨0x06, "BCDENC", 0x30000000, 0xFFFFFFFF⟩,
   ⟨0x07, "BCDDEC", 0x38000000, 0xFFFFFFFF⟩,
   ⟨0x08, "BCDST", 0x40000000, 0xFFFFC000⟩] ++
  [⟨0x09, "BCDLD", 0x48000000, 0xFFFFC000⟩,
   ⟨0x0A, "NUMENC", 0x50000000, 0xFFF00000⟩,
   ⟨0x0B, "NUMDEC", 0x58000000, 0xFFF80000⟩,
   ⟨0x0C, "MINOR", 0x60000000, 0xFFFFFFC0⟩,
   ⟨0x0D, "PAD", 0x68000000, 0xFF000000⟩,
   ⟨0x0E, "FLDLEN", 0x70000000, 0xFFC00000⟩,
   ⟨0x0F, "DATEENC", 0x78000000, 0xFFFFC000⟩,
   ⟨0x10, "DATEDEC", 0x80000000, 0xFFFFC000⟩,
   ⟨0x11, "TLVNEXT", 0x88000000, 0xFFFFFFFF⟩]

/-- A word selects a row when its masked bits are the row's match (30_encoding.md R94). -/
abbrev OpcodeRow.selects (r : OpcodeRow) (c : Word) : Prop := c &&& r.maskBits = r.matchBits

/-- The mnemonic of a command (30_encoding.md R94). -/
def mnemonicOf : Instr → String
  | .nop => "NOP"
  | .encode => "ENCODE"
  | .decode => "DECODE"
  | .check => "CHECK"
  | .lrc _ => "LRC"
  | .verify _ => "VERIFY"
  | .bcdenc => "BCDENC"
  | .bcddec => "BCDDEC"
  | .bcdst _ => "BCDST"
  | .bcdld _ => "BCDLD"
  | .numenc _ _ _ => "NUMENC"
  | .numdec _ _ => "NUMDEC"
  | .minor _ _ => "MINOR"
  | .pad _ _ _ _ => "PAD"
  | .fldlen _ _ => "FLDLEN"
  | .dateenc _ => "DATEENC"
  | .datedec _ => "DATEDEC"
  | .tlvnext => "TLVNEXT"

/-- What the decoder reads from a table row's word of `nbits` bits; bits above them are 0. Every command is one 32-bit
word (30_encoding.md R90). -/
def decodeTableWord (nbits w : Nat) : Option Instr :=
  match decode (BitVec.ofNat 32 (w % 2 ^ nbits)) with
  | .ok i => some i
  | .error _ => none

/-- AMTENC addr, s: MINOR with the OPEN rounding mode, then NUMENC.R of width 12 (30_encoding.md R101). The host waits
for the first to complete before it issues the second. -/
def pseudoAmtenc (addr : BitVec 14) (scale : BitVec 5) : List Instr :=
  [.minor (rmodeOfBit Config.amountRmode) scale, .numenc .res (BitVec.ofNat 5 Config.amountWidth) addr]

/-- AMTDEC addr (30_encoding.md R101). -/
def pseudoAmtdec (addr : BitVec 14) : List Instr := [.numdec (BitVec.ofNat 5 Config.amountWidth) addr]

/-- PADSR w, addr: space padding on the right (30_encoding.md R101; 43_field_marshal.md R206). -/
def pseudoPadsr (width : BitVec 8) (addr : BitVec 14) : List Instr := [.pad .left .space width addr]

/-- PADZL w, addr: zero padding on the left (30_encoding.md R101; 43_field_marshal.md R206; log 10). -/
def pseudoPadzl (width : BitVec 8) (addr : BitVec 14) : List Instr := [.pad .right .zero width addr]

/-- ECRREF addr (30_encoding.md R101). -/
def pseudoEcrref (addr : BitVec 14) : List Instr := pseudoPadsr (BitVec.ofNat 8 Config.ecrRefWidth) addr

/-- VALIDATE (30_encoding.md R101). -/
def pseudoValidate : List Instr := [.check]

end Sys2Proof
end

