-- ==== Sys2Proof/Machine/State.lean ====
section
/-! DEFINITION. The state of the block as plain data (spec/10_state.md R20 to R46), the host accesses and the schedule
it reads, and the state after reset (spec/70_reset_and_hazards.md R280, R281). -/

namespace Sys2Proof.Machine

/-- The error codes of a completion (60_exceptions.md R250). The reserved codes 11 to 255 are never written, so they
have no constructor (93_implementation_defined.md U7; log 18). -/
inductive ErrCode where
  /-- 0: the command succeeded. -/
  | none
  /-- 1: the word names no command. -/
  | illegalCmd
  /-- 2: PLEN > 9999. -/
  | payloadTooLarge
  /-- 3: an operand or result outside its range. -/
  | outOfRange
  /-- 4: a nibble above 9, or non-zero OPA[63:16] for BCDDEC. -/
  | badBcd
  /-- 5: FLEN < 5. -/
  | runtFrame
  /-- 6: a byte that must be an ASCII digit is not. -/
  | badDigit
  /-- 7: the source string is longer than the field. -/
  | tooLong
  /-- 8: a buffer range past index 16383, FLEN > 16384, or POS > END. -/
  | bounds
  /-- 9: a TLV entry runs past END. -/
  | truncated
  /-- 10: the date fields are no valid date. -/
  | badDate
deriving DecidableEq, Repr

/-- FLAGS as its named bits; bits 31:7 are always 0 (10_state.md R32). A bit that a command does not name is 0. -/
structure Flags where
  /-- Bit 0, OK. -/
  ok : Bool := false
  /-- Bit 1, LENBCD. -/
  lenbcd : Bool := false
  /-- Bit 2, LENMATCH. -/
  lenmatch : Bool := false
  /-- Bit 3, STXOK. -/
  stxok : Bool := false
  /-- Bit 4, ETXOK. -/
  etxok : Bool := false
  /-- Bit 5, NUL. -/
  nul : Bool := false
  /-- Bit 6, END. -/
  endOfField : Bool := false
deriving DecidableEq, Repr

/-- A buffer: the bytes written since power-on, as (index, byte) pairs with rising indices. An index that is not
listed has not been written and holds no value of its own (10_state.md R38; log 2). -/
abbrev Memory := List Host.Cell

/-- The canonical form: indices strictly rising, all below BUF_SIZE (log 2). -/
abbrev Memory.wf (m : Memory) : Prop :=
  m.Pairwise (fun c d => c.1 < d.1) ∧ ∀ c ∈ m, c.1 < Config.bufSize

/-- The width of a host access (20_memory.md R63). -/
inductive Width where
  | w8
  | w16
  | w32
deriving DecidableEq, Repr

/-- A host access to a window offset (20_memory.md R63). The datum of a narrower write is the low bits of `data`
(log 15). -/
inductive Access where
  | read (width : Width) (offset : BitVec 16)
  | write (width : Width) (offset : BitVec 16) (data : Word)
deriving DecidableEq, Repr

/-- What the host sees of an access: the error response of a bus error, and the data of a read, 0 after a bus error
(20_memory.md R66) and 0 for a write (log 5). -/
structure Response where
  error : Bool
  data : Word
deriving DecidableEq, Repr

/-- One turn of the schedule: which agent moves next (00_scope.md R15; log 3). -/
inductive Turn where
  /-- A host access. -/
  | host (access : Access)
  /-- The command engine's completion step, enabled when STATUS.BUSY = 1. -/
  | engine
  /-- The reset input takes a level: true asserts it, false releases it (70_reset_and_hazards.md R280; log 6). -/
  | resetInput (level : Bool)
deriving DecidableEq, Repr

/-- The state of the block. STATUS.ERR, irq, OPA and RES are views of it (10_state.md R23, R44, R28, R30). -/
structure State where
  /-- CTRL.IE (10_state.md R22). -/
  ie : Bool
  /-- STATUS.BUSY (10_state.md R23). -/
  busy : Bool
  /-- STATUS.DONE (10_state.md R23). -/
  done : Bool
  /-- STATUS.OVR (10_state.md R23). -/
  ovr : Bool
  /-- ERRCODE.CODE (10_state.md R24). -/
  errcode : ErrCode
  /-- CMD, the last word accepted for issue (10_state.md R25). -/
  cmd : Word
  /-- PLEN[15:0] (10_state.md R26). -/
  plen : BitVec 16
  /-- FLEN[15:0] (10_state.md R27). -/
  flen : BitVec 16
  /-- OPA_LO (10_state.md R28). -/
  opaLo : Word
  /-- OPA_HI (10_state.md R28). -/
  opaHi : Word
  /-- OPB (10_state.md R29). -/
  opb : Word
  /-- RES_LO (10_state.md R30). -/
  resLo : Word
  /-- RES_HI (10_state.md R30). -/
  resHi : Word
  /-- LENFIELD: VALUE in [31:16], RAW in [15:0] (10_state.md R31). -/
  lenfield : Word
  /-- FLAGS (10_state.md R32). -/
  flags : Flags
  /-- REPLY.BYTE (10_state.md R33). -/
  reply : Byte
  /-- PBUF (10_state.md R36). -/
  pbuf : Memory
  /-- FBUF (10_state.md R37). -/
  fbuf : Memory
  /-- The level of the reset input: true while it is asserted (70_reset_and_hazards.md R280; log 6). -/
  inReset : Bool
  /-- The model's own: how often the buffer contents have become unspecified; selects the draws of unwritten bytes
  (10_state.md R38; log 1). -/
  epoch : Nat
  /-- The model's own: the pending turns, the next first (log 3). -/
  turns : List Turn
  /-- The model's own: the response to the last host access (log 5). -/
  response : Option Response
deriving DecidableEq, Repr

/-- The block has no fault that stops it: a command error is a code in ERRCODE and a bad access is an error response
(60_exceptions.md R252, R255, R258; log 12). Nothing raises one, which is safe. -/
inductive Fault where
deriving DecidableEq, Repr

/-- Why the model gives a command no meaning. -/
inductive Refusal where
  /-- Raised only by an arm of `exec` for a command that has no meaning yet; safe. No arm does. -/
  | notModelled (mnemonic : String)
deriving DecidableEq, Repr

/-- The block right after power-on reset (70_reset_and_hazards.md R280, R281): every register at the value R281
gives, no buffer byte written, nothing scheduled. -/
def State.reset : State where
  ie := false
  busy := false
  done := false
  ovr := false
  errcode := .none
  cmd := 0
  plen := 0
  flen := 0
  opaLo := 0
  opaHi := 0
  opb := 0
  resLo := 0
  resHi := 0
  lenfield := 0
  flags := {}
  reply := 0
  pbuf := []
  fbuf := []
  inReset := false
  epoch := 0
  turns := []
  response := Option.none

end Sys2Proof.Machine
end

