-- ==== Sys2Proof/Machine/Operands.lean ====
section
/-! DEFINITION. The operands of the commands: the views of the operand registers, packed decimal, ASCII digits, powers
of ten and dates (spec/10_state.md R28 to R30; spec/41_bcd.md R150 to R152; spec/43_field_marshal.md R190 to R216). -/

namespace Sys2Proof.Machine

/-! ## Operand registers -/

/-- OPA = {OPA_HI, OPA_LO} (10_state.md R28). -/
def State.opa (s : State) : BitVec 64 := s.opaHi ++ s.opaLo

/-- RES = {RES_HI, RES_LO} (10_state.md R30). -/
def State.res (s : State) : BitVec 64 := s.resHi ++ s.resLo

/-- OPB[15:0]: START, SRC or POS (10_state.md R29). -/
def State.opbLow (s : State) : BitVec 16 := s.opb.extractLsb' 0 16

/-- OPB[31:16]: COUNT, SRCLEN or END (10_state.md R29). -/
def State.opbHigh (s : State) : BitVec 16 := s.opb.extractLsb' 16 16

/-- The value NUMENC formats, by its SRC field (43_field_marshal.md R190; 30_encoding.md R92). -/
def State.numSource (s : State) : NumSrc → BitVec 64
  | .opa => s.opa
  | .res => s.res

/-! ## Packed decimal -/

/-- The four nibbles of a 16-bit value, d3 to d0 (41_bcd.md R150). -/
def bcdNibble (r : BitVec 16) (k : Nat) : Nat := (r.extractLsb' (4 * k) 4).toNat

/-- BCDValue: whether the four nibbles are decimal digits, and their value, 0 when they are not (41_bcd.md R150). -/
def bcdValue (r : BitVec 16) : Bool × Nat :=
  if bcdNibble r 3 > 9 ∨ bcdNibble r 2 > 9 ∨ bcdNibble r 1 > 9 ∨ bcdNibble r 0 > 9 then (false, 0)
  else (true, 1000 * bcdNibble r 3 + 100 * bcdNibble r 2 + 10 * bcdNibble r 1 + bcdNibble r 0)

/-- The byte of two decimal digits, the more significant in the high nibble (41_bcd.md R151). -/
def bcdByte (high low : Nat) : Byte := BitVec.ofNat 4 high ++ BitVec.ofNat 4 low

/-- ToBCD: the pair (hi, lo), thousands and hundreds in the byte that comes first (41_bcd.md R151; log 8). -/
def toBcd (n : Nat) : Byte × Byte :=
  (bcdByte (n / 1000) (n / 100 % 10), bcdByte (n / 10 % 10) (n % 10))

/-! ## ASCII digits -/

/-- An ASCII digit is a byte in 0x30..0x39 (00_scope.md R12). -/
def isDigit (b : Byte) : Bool := Config.charZero ≤ b && b ≤ Config.charNine

/-- The value of an ASCII digit is the byte minus 0x30 (00_scope.md R12). -/
def digitVal (b : Byte) : Nat := b.toNat - Config.charZero.toNat

/-- The ASCII digit of a value below 10 (00_scope.md R12). -/
def digitChar (d : Nat) : Byte := BitVec.ofNat 8 (Config.charZero.toNat + d)

/-- digits(v, w): the digit string of v with width w, most significant digit first (00_scope.md R12;
43_field_marshal.md R190, R218). -/
def digits (v w : Nat) : List Byte :=
  (List.range w).map (fun i => digitChar (v / 10 ^ (w - 1 - i) % 10))

/-- The value of a digit string: each digit times ten to the number of digits after it (43_field_marshal.md R194). -/
def decValue : List Byte → Nat
  | [] => 0
  | b :: rest => digitVal b * 10 ^ rest.length + decValue rest

/-! ## Dates -/

/-- YEAR = D[63:48] (43_field_marshal.md R215). -/
def dateYear (d : BitVec 64) : Nat := (d.extractLsb' 48 16).toNat

/-- MONTH = D[47:40] (43_field_marshal.md R215). -/
def dateMonth (d : BitVec 64) : Nat := (d.extractLsb' 40 8).toNat

/-- DAY = D[39:32] (43_field_marshal.md R215). -/
def dateDay (d : BitVec 64) : Nat := (d.extractLsb' 32 8).toNat

/-- HOUR = D[31:24] (43_field_marshal.md R215). -/
def dateHour (d : BitVec 64) : Nat := (d.extractLsb' 24 8).toNat

/-- MINUTE = D[23:16] (43_field_marshal.md R215). -/
def dateMinute (d : BitVec 64) : Nat := (d.extractLsb' 16 8).toNat

/-- SECOND = D[15:8] (43_field_marshal.md R215). -/
def dateSecond (d : BitVec 64) : Nat := (d.extractLsb' 8 8).toNat

/-- The date value of six fields, with D[7:0] = 0 (43_field_marshal.md R215, R222). -/
def dateOf (year month day hour minute second : Nat) : BitVec 64 :=
  BitVec.ofNat 16 year ++ BitVec.ofNat 8 month ++ BitVec.ofNat 8 day ++ BitVec.ofNat 8 hour ++
    BitVec.ofNat 8 minute ++ BitVec.ofNat 8 second ++ 0#8

/-- Leap, the proleptic Gregorian rule (43_field_marshal.md R216; log 11). -/
def leapYear (y : Nat) : Bool := (y % 4 == 0 && y % 100 != 0) || y % 400 == 0

/-- DaysInMonth (43_field_marshal.md R216); 0 for a number that names no month, so that no day fits. -/
def daysInMonth (year month : Nat) : Nat :=
  match month with
  | 1 => 31
  | 2 => if leapYear year then 29 else 28
  | 3 => 31
  | 4 => 30
  | 5 => 31
  | 6 => 30
  | 7 => 31
  | 8 => 31
  | 9 => 30
  | 10 => 31
  | 11 => 30
  | 12 => 31
  | _ => 0

/-- DateValid (43_field_marshal.md R216; log 11). -/
def dateValid (d : BitVec 64) : Bool :=
  d.extractLsb' 0 8 == 0 &&
    decide (1 ≤ dateYear d ∧ dateYear d ≤ 9999) &&
    decide (1 ≤ dateMonth d ∧ dateMonth d ≤ 12) &&
    decide (1 ≤ dateDay d ∧ dateDay d ≤ daysInMonth (dateYear d) (dateMonth d)) &&
    decide (dateHour d ≤ 23) && decide (dateMinute d ≤ 59) && decide (dateSecond d ≤ 59)

/-- The wire form yyyyMMddHHmmss of a date value (43_field_marshal.md R215, R218). -/
def dateString (d : BitVec 64) : List Byte :=
  digits (dateYear d) 4 ++ digits (dateMonth d) 2 ++ digits (dateDay d) 2 ++
    digits (dateHour d) 2 ++ digits (dateMinute d) 2 ++ digits (dateSecond d) 2

/-- The date value of a 14-digit string (43_field_marshal.md R222). -/
def dateOfString (s : List Byte) : BitVec 64 :=
  dateOf (decValue (s.take 4)) (decValue ((s.drop 4).take 2)) (decValue ((s.drop 6).take 2))
    (decValue ((s.drop 8).take 2)) (decValue ((s.drop 10).take 2)) (decValue ((s.drop 12).take 2))

/-! ## Rounding and padding -/

/-- The minor units of an amount with more than two fraction digits, m / d rounded by RMODE
(43_field_marshal.md R198). -/
def roundUnits (rmode : RMode) (m d : Nat) : Nat :=
  match rmode with
  | .half => m / d + (if 2 * (m % d) ≥ d then 1 else 0)
  | .away => m / d + (if m % d ≠ 0 then 1 else 0)

/-- MINOR's exact result: the amount M / 10^S in minor units (43_field_marshal.md R198). -/
def minorUnits (rmode : RMode) (scale m : Nat) : Nat :=
  if scale ≤ 2 then m * 10 ^ (2 - scale) else roundUnits rmode m (10 ^ (scale - 2))

/-- The pad byte of PADZ (30_encoding.md R92). -/
def padByte : PadChar → Byte
  | .space => Config.charSpace
  | .zero => Config.charZero

/-- The source string in a field of width w, padded on the side RJUST says (43_field_marshal.md R204). -/
def padField (rjust : Justify) (padz : PadChar) (width : Nat) (source : List Byte) : List Byte :=
  match rjust with
  | .left => source ++ List.replicate (width - source.length) (padByte padz)
  | .right => List.replicate (width - source.length) (padByte padz) ++ source

end Sys2Proof.Machine
end

