-- ==== Sys2Proof/Machine/Flags.lean ====
section
/-! DEFINITION. The checksum, the flag computations of the commands, and the words in which the status registers are
read (spec/10_state.md R21 to R33, R44; spec/42_checksum.md R170). -/

namespace Sys2Proof.Machine

/-- XOR(s): every byte folded with exclusive or, 0x00 for the empty string (42_checksum.md R170; 00_scope.md R10). -/
def xorBytes (bytes : List Byte) : Byte := bytes.foldl (fun acc b => acc ^^^ b) 0

/-- The number of an error code (60_exceptions.md R250). -/
def ErrCode.code : ErrCode → Byte
  | .none => 0
  | .illegalCmd => 1
  | .payloadTooLarge => 2
  | .outOfRange => 3
  | .badBcd => 4
  | .runtFrame => 5
  | .badDigit => 6
  | .tooLong => 7
  | .bounds => 8
  | .truncated => 9
  | .badDate => 10

/-- STATUS.ERR always equals ERRCODE != 0 (10_state.md R23). -/
def State.err (s : State) : Bool := s.errcode.code != 0

/-- The interrupt output: CTRL.IE and STATUS.DONE (10_state.md R44). -/
def State.irq (s : State) : Bool := s.ie && s.done

/-- CTRL as it is read: IE in bit 0, SRST reads 0 (10_state.md R22). -/
def State.ctrlWord (s : State) : Word := 0#31 ++ BitVec.ofBool s.ie

/-- STATUS as it is read: OVR, ERR, DONE, BUSY in bits 3 to 0 (10_state.md R23). -/
def State.statusWord (s : State) : Word :=
  0#28 ++ BitVec.ofBool s.ovr ++ BitVec.ofBool s.err ++ BitVec.ofBool s.done ++ BitVec.ofBool s.busy

/-- FLAGS as it is read: END, NUL, ETXOK, STXOK, LENMATCH, LENBCD, OK in bits 6 to 0 (10_state.md R32). -/
def Flags.word (f : Flags) : Word :=
  0#25 ++ BitVec.ofBool f.endOfField ++ BitVec.ofBool f.nul ++ BitVec.ofBool f.etxok ++ BitVec.ofBool f.stxok ++
    BitVec.ofBool f.lenmatch ++ BitVec.ofBool f.lenbcd ++ BitVec.ofBool f.ok

/-- The flags of DECODE and CHECK from what they saw in a frame of n bytes: whether the checksum matched, the length
field's BCD reading, and the two marker bytes (40_frame_codec.md R127). -/
def judgeFlags (n : Nat) (ok : Bool) (len : Bool × Nat) (start finish : Byte) : Flags where
  ok := ok
  lenbcd := len.1
  lenmatch := len.1 && len.2 == n - Config.frameOverhead
  stxok := start == Config.stx
  etxok := finish == Config.etx

/-- The verdict byte: ACK for a valid frame, else NAK (10_state.md R33; 40_frame_codec.md R134). -/
def verdict (ok : Bool) : Byte := if ok then Config.ack else Config.nak

end Sys2Proof.Machine
end

