-- ==== Sys2Proof/Machine/Ops.lean ====
section
/-! DEFINITION. The named operations over buffers and registers, and the two endings of a completion: success, and
raising an error, which is this block's way of taking an exception (spec/20_memory.md R70, R71;
spec/10_state.md R41, R42; spec/60_exceptions.md R252; spec/70_reset_and_hazards.md R280, R282). -/

namespace Sys2Proof.Machine

/-! ## Buffers as lists of written cells -/

/-- The byte written at an index, if any. -/
def readCell : Memory → Nat → Option Byte
  | [], _ => Option.none
  | (k, b) :: rest, i => if k = i then some b else readCell rest i

/-- A byte string as cells at rising indices. -/
def cellsFrom : Nat → List Byte → Memory
  | _, [] => []
  | i, b :: rest => (i, b) :: cellsFrom (i + 1) rest

/-- The buffer with a byte string written at an index: the cells below the range, the range, the cells above it. -/
def writeCells (m : Memory) (i : Nat) (bytes : List Byte) : Memory :=
  m.filter (fun c => c.1 < i) ++ (cellsFrom i bytes ++ m.filter (fun c => i + bytes.length ≤ c.1))

/-- The window offset of index 0 of a buffer (20_memory.md R61). -/
def bufBase : Buf → Nat
  | .pbuf => Config.pbufBase
  | .fbuf => Config.fbufBase

/-- The cells of a buffer. -/
def State.buffer (s : State) : Buf → Memory
  | .pbuf => s.pbuf
  | .fbuf => s.fbuf

/-- `buf[i]`: the byte written there, or the draw of a byte that has not been written since power-on
(00_scope.md R9, R10; 10_state.md R38; log 1). -/
def State.readByte (s : State) (b : Buf) (i : Nat) : Byte :=
  (readCell (s.buffer b) i).getD (Config.powerOnByte s.epoch (bufBase b + i))

/-- MemRead(buf, a, n): the byte string buf[a..a+n) (00_scope.md R10). -/
def State.readBytes (s : State) (b : Buf) (a n : Nat) : List Byte :=
  (List.range n).map (fun k => s.readByte b (a + k))

/-- MemWrite(buf, a, n, bytes), n the string's length (00_scope.md R10). -/
def State.writeBytes (s : State) (b : Buf) (a : Nat) (bytes : List Byte) : State :=
  match b with
  | .pbuf => { s with pbuf := writeCells s.pbuf a bytes }
  | .fbuf => { s with fbuf := writeCells s.fbuf a bytes }

/-- The range [a..a+n) ends inside a buffer (20_memory.md R70). -/
abbrev inBounds (a n : Nat) : Prop := a + n ≤ Config.bufSize

/-! ## Results -/

/-- RES <- v, in its two registers (10_state.md R30). -/
def State.setRes (s : State) (v : BitVec 64) : State :=
  { s with resLo := v.extractLsb' 0 32, resHi := v.extractLsb' 32 32 }

/-- OPB[15:0] <- v, OPB[31:16] unchanged (10_state.md R29; 43_field_marshal.md R232). -/
def State.setOpbLow (s : State) (v : BitVec 16) : State := { s with opb := s.opbHigh ++ v }

/-! ## The endings of a completion -/

/-- What a command's pseudocode ends with: the flags and the state with its results written, or the code it raised. -/
abbrev Result := Except ErrCode (Flags × State)

/-- A completion that succeeded: ERRCODE <- 0, the whole of FLAGS, BUSY <- 0, DONE <- 1 (10_state.md R41, R32). -/
def State.succeed (s : State) (f : Flags) : State :=
  { s with errcode := .none, flags := f, busy := false, done := true }

/-- A completion that raised an error: ERRCODE <- code, FLAGS <- 0, BUSY <- 0, DONE <- 1, nothing else
(60_exceptions.md R252). -/
def State.raise (s : State) (e : ErrCode) : State :=
  { s with errcode := e, flags := {}, busy := false, done := true }

/-- The same for DECODE and CHECK, which also write REPLY <- NAK (60_exceptions.md R252; 40_frame_codec.md R128). -/
def State.raiseNak (s : State) (e : ErrCode) : State := { s.raise e with reply := Config.nak }

/-- The completion of a command, from the state at its start and its result (10_state.md R41). -/
def State.commit (s : State) : Result → State
  | .ok (f, t) => t.succeed f
  | .error e => s.raise e

/-- The completion of DECODE or CHECK (10_state.md R41; 60_exceptions.md R252). -/
def State.commitJudged (s : State) : Result → State
  | .ok (f, t) => t.succeed f
  | .error e => s.raiseNak e

/-! ## Issue and reset -/

/-- The issue of a command: CMD <- w, DONE <- 0, BUSY <- 1 (10_state.md R42). -/
def State.issue (s : State) (w : Word) : State := { s with cmd := w, done := false, busy := true }

/-- The soft reset: every register at its reset value, the buffers kept, a command in flight abandoned
(70_reset_and_hazards.md R282, R283). The model's own fields stay. -/
def State.softReset (s : State) : State :=
  { State.reset with
    pbuf := s.pbuf, fbuf := s.fbuf, epoch := s.epoch, inReset := s.inReset, turns := s.turns,
    response := s.response }

/-- Both buffers become unspecified: every byte is a new draw (10_state.md R38; log 1). -/
def State.loseBuffers (s : State) : State := { s with pbuf := [], fbuf := [], epoch := s.epoch + 1 }

/-- The hardware reset, with the reset input at a level: every register at its reset value, no command in flight, and
both buffers unspecified (70_reset_and_hazards.md R280, R281; log 6). The schedule stays. -/
def State.hardwareReset (s : State) (level : Bool) : State :=
  { State.reset with inReset := level, epoch := s.epoch + 1, turns := s.turns }

/-- The reset input takes a level. Asserting it, and releasing it, leave the block reset; releasing an input that is
not asserted is no event (70_reset_and_hazards.md R280; log 6). -/
def State.takeResetLevel (s : State) (level : Bool) : State :=
  if level || s.inReset then s.hardwareReset level else s

end Sys2Proof.Machine
end

