-- ==== Sys2Proof/Machine/Bcd.lean ====
section
/-! DEFINITION. BCDENC, BCDDEC, BCDST and BCDLD (spec/41_bcd.md R150 to R165). -/

namespace Sys2Proof.Machine

/-- {hi, lo} of ToBCD, zero-extended to 64 bits (41_bcd.md R153). -/
def bcdWord (n : Nat) : BitVec 64 := ((toBcd n).1 ++ (toBcd n).2).setWidth 64

/-- BCDENC's pseudocode (41_bcd.md R153). -/
def bcdencResult (s : State) : Result :=
  if s.opa.toNat > Config.maxBcd then .error .outOfRange
  else .ok ({}, s.setRes (bcdWord s.opa.toNat))

/-- BCDENC (41_bcd.md R153, R154). -/
def execBcdenc (s : State) : Host.Outcome State Fault Refusal := .next (s.commit (bcdencResult s))

/-- FromBCD for a command that needs the value: RES <- value, or BAD_BCD (41_bcd.md R152). -/
def fromBcd (s : State) (r : BitVec 16) : Result :=
  if (bcdValue r).1 then .ok ({}, s.setRes (BitVec.ofNat 64 (bcdValue r).2))
  else .error .badBcd

/-- BCDDEC's pseudocode (41_bcd.md R156). -/
def bcddecResult (s : State) : Result :=
  if s.opa.extractLsb' 16 48 ≠ 0 then .error .badBcd
  else fromBcd s (s.opa.extractLsb' 0 16)

/-- BCDDEC (41_bcd.md R156, R157). -/
def execBcddec (s : State) : Host.Outcome State Fault Refusal := .next (s.commit (bcddecResult s))

/-- BCDST's pseudocode (41_bcd.md R159). -/
def bcdstResult (a : Nat) (s : State) : Result :=
  if ¬ inBounds a 2 then .error .bounds
  else if s.opa.toNat > Config.maxBcd then .error .outOfRange
  else
    let pair := toBcd s.opa.toNat
    .ok ({}, (s.writeBytes .pbuf a [pair.1, pair.2]).setRes (bcdWord s.opa.toNat))

/-- BCDST (41_bcd.md R159, R160). -/
def execBcdst (addr : BitVec 14) (s : State) : Host.Outcome State Fault Refusal :=
  .next (s.commit (bcdstResult addr.toNat s))

/-- BCDLD's pseudocode (41_bcd.md R162). -/
def bcdldResult (a : Nat) (s : State) : Result :=
  if ¬ inBounds a 2 then .error .bounds
  else fromBcd s (s.readByte .pbuf a ++ s.readByte .pbuf (a + 1))

/-- BCDLD (41_bcd.md R162, R163). -/
def execBcdld (addr : BitVec 14) (s : State) : Host.Outcome State Fault Refusal :=
  .next (s.commit (bcdldResult addr.toNat s))

end Sys2Proof.Machine
end

