-- ==== Sys2Proof/Machine/Checksum.lean ====
section
/-! DEFINITION. LRC and VERIFY (spec/42_checksum.md R170 to R178). -/

namespace Sys2Proof.Machine

/-- The XOR over the range START = OPB[15:0], COUNT = OPB[31:16] of a buffer (42_checksum.md R171, R174). -/
def State.rangeLrc (s : State) (b : Buf) : Byte := xorBytes (s.readBytes b s.opbLow.toNat s.opbHigh.toNat)

/-- LRC's pseudocode (42_checksum.md R171). -/
def lrcResult (b : Buf) (s : State) : Result :=
  if ¬ inBounds s.opbLow.toNat s.opbHigh.toNat then .error .bounds
  else .ok ({}, s.setRes ((s.rangeLrc b).setWidth 64))

/-- LRC (42_checksum.md R171, R172). -/
def execLrc (b : Buf) (s : State) : Host.Outcome State Fault Refusal := .next (s.commit (lrcResult b s))

/-- VERIFY's pseudocode (42_checksum.md R174). -/
def verifyResult (b : Buf) (s : State) : Result :=
  if ¬ inBounds s.opbLow.toNat s.opbHigh.toNat then .error .bounds
  else if s.opa.toNat > 0xFF then .error .outOfRange
  else .ok ({ ok := s.rangeLrc b == s.opa.extractLsb' 0 8 }, s.setRes ((s.rangeLrc b).setWidth 64))

/-- VERIFY (42_checksum.md R174, R175). -/
def execVerify (b : Buf) (s : State) : Host.Outcome State Fault Refusal := .next (s.commit (verifyResult b s))

end Sys2Proof.Machine
end

