-- ==== Sys2Proof/Machine/FieldMarshal.lean ====
section
/-! DEFINITION. NUMENC, NUMDEC, MINOR, PAD, FLDLEN, DATEENC, DATEDEC and TLVNEXT (spec/43_field_marshal.md R190 to
R232). -/

namespace Sys2Proof.Machine

/-- NUMENC's pseudocode (43_field_marshal.md R190). -/
def numencResult (src : NumSrc) (w a : Nat) (s : State) : Result :=
  if ¬ inBounds a w then .error .bounds
  else if (s.numSource src).toNat ≥ 10 ^ w then .error .outOfRange
  else .ok ({}, s.writeBytes .pbuf a (digits (s.numSource src).toNat w))

/-- NUMENC (43_field_marshal.md R190, R191). -/
def execNumenc (src : NumSrc) (width : BitVec 5) (addr : BitVec 14) (s : State) :
    Host.Outcome State Fault Refusal :=
  .next (s.commit (numencResult src width.toNat addr.toNat s))

/-- NUMDEC's pseudocode (43_field_marshal.md R194). -/
def numdecResult (w a : Nat) (s : State) : Result :=
  let field := s.readBytes .pbuf a w
  if ¬ inBounds a w then .error .bounds
  else if ¬ field.all isDigit then .error .badDigit
  else if decValue field ≥ 2 ^ 64 then .error .outOfRange
  else .ok ({}, s.setRes (BitVec.ofNat 64 (decValue field)))

/-- NUMDEC (43_field_marshal.md R194, R195). -/
def execNumdec (width : BitVec 5) (addr : BitVec 14) (s : State) : Host.Outcome State Fault Refusal :=
  .next (s.commit (numdecResult width.toNat addr.toNat s))

/-- MINOR's pseudocode (43_field_marshal.md R198, R199). -/
def minorResult (rmode : RMode) (scale : Nat) (s : State) : Result :=
  let m := minorUnits rmode scale s.opa.toNat
  if m ≥ 2 ^ 64 then .error .outOfRange
  else .ok ({}, s.setRes (BitVec.ofNat 64 m))

/-- MINOR (43_field_marshal.md R198). -/
def execMinor (rmode : RMode) (scale : BitVec 5) (s : State) : Host.Outcome State Fault Refusal :=
  .next (s.commit (minorResult rmode scale.toNat s))

/-- PAD's pseudocode: the whole source is read before the destination is written (43_field_marshal.md R204;
20_memory.md R71). -/
def padResult (rjust : Justify) (padz : PadChar) (w a : Nat) (s : State) : Result :=
  if ¬ inBounds s.opbLow.toNat s.opbHigh.toNat ∨ ¬ inBounds a w then .error .bounds
  else if s.opbHigh.toNat > w then .error .tooLong
  else .ok ({}, s.writeBytes .pbuf a
    (padField rjust padz w (s.readBytes .pbuf s.opbLow.toNat s.opbHigh.toNat)))

/-- PAD (43_field_marshal.md R204, R205). -/
def execPad (rjust : Justify) (padz : PadChar) (width : BitVec 8) (addr : BitVec 14) (s : State) :
    Host.Outcome State Fault Refusal :=
  .next (s.commit (padResult rjust padz width.toNat addr.toNat s))

/-- The least index of a NUL byte in a string, the string's length if it holds none (43_field_marshal.md R210). -/
def firstNul : List Byte → Nat
  | [] => 0
  | b :: rest => if b = Config.charNul then 0 else firstNul rest + 1

/-- FLDLEN's pseudocode (43_field_marshal.md R210). -/
def fldlenResult (w a : Nat) (s : State) : Result :=
  let field := s.readBytes .pbuf a w
  if ¬ inBounds a w then .error .bounds
  else .ok ({ nul := decide (firstNul field < w) }, s.setRes (BitVec.ofNat 64 (firstNul field)))

/-- FLDLEN (43_field_marshal.md R210, R211). -/
def execFldlen (width : BitVec 8) (addr : BitVec 14) (s : State) : Host.Outcome State Fault Refusal :=
  .next (s.commit (fldlenResult width.toNat addr.toNat s))

/-- DATEENC's pseudocode (43_field_marshal.md R218). -/
def dateencResult (a : Nat) (s : State) : Result :=
  if ¬ inBounds a Config.dateWidth then .error .bounds
  else if ¬ dateValid s.opa then .error .badDate
  else .ok ({}, s.writeBytes .pbuf a (dateString s.opa))

/-- DATEENC (43_field_marshal.md R218, R219). -/
def execDateenc (addr : BitVec 14) (s : State) : Host.Outcome State Fault Refusal :=
  .next (s.commit (dateencResult addr.toNat s))

/-- DATEDEC's pseudocode (43_field_marshal.md R222). -/
def datedecResult (a : Nat) (s : State) : Result :=
  let field := s.readBytes .pbuf a Config.dateWidth
  if ¬ inBounds a Config.dateWidth then .error .bounds
  else if ¬ field.all isDigit then .error .badDigit
  else if ¬ dateValid (dateOfString field) then .error .badDate
  else .ok ({}, s.setRes (dateOfString field))

/-- DATEDEC (43_field_marshal.md R222, R223). -/
def execDatedec (addr : BitVec 14) (s : State) : Host.Outcome State Fault Refusal :=
  .next (s.commit (datedecResult addr.toNat s))

/-- The value length of the TLV entry at an index, from its three length digits (43_field_marshal.md R228). -/
def State.tlvLen (s : State) (pos : Nat) : Nat := decValue (s.readBytes .pbuf (pos + 2) 3)

/-- RES of a TLV entry: the value's length above, then the value's index, tag byte 2 and tag byte 1
(43_field_marshal.md R228). -/
def State.tlvRes (s : State) (pos : Nat) : BitVec 64 :=
  BitVec.ofNat 32 (s.tlvLen pos) ++
    (BitVec.ofNat 16 (pos + Config.tlvHeader) ++ s.readByte .pbuf (pos + 1) ++ s.readByte .pbuf pos)

/-- TLVNEXT's pseudocode (43_field_marshal.md R228, R229). -/
def tlvnextResult (s : State) : Result :=
  let pos := s.opbLow.toNat
  let fin := s.opbHigh.toNat
  if fin > Config.bufSize ∨ pos > fin then .error .bounds
  else if pos = fin then .ok ({ endOfField := true }, s)
  else if fin - pos < Config.tlvHeader then .error .truncated
  else if ¬ (s.readBytes .pbuf (pos + 2) 3).all isDigit then .error .badDigit
  else if pos + Config.tlvHeader + s.tlvLen pos > fin then .error .truncated
  else .ok ({}, (s.setRes (s.tlvRes pos)).setOpbLow (BitVec.ofNat 16 (pos + Config.tlvHeader + s.tlvLen pos)))

/-- TLVNEXT (43_field_marshal.md R228 to R232). -/
def execTlvnext (s : State) : Host.Outcome State Fault Refusal := .next (s.commit (tlvnextResult s))

end Sys2Proof.Machine
end

