-- ==== Sys2Proof/Machine/FrameCodec.lean ====
section
/-! DEFINITION. NOP, ENCODE, DECODE and CHECK (spec/40_frame_codec.md R120 to R138). -/

namespace Sys2Proof.Machine

/-- NOP (40_frame_codec.md R120). -/
def execNop (s : State) : Host.Outcome State Fault Refusal := .next (s.commit (.ok ({}, s)))

/-- The frame body of a payload: the two length bytes, the payload and the end marker (40_frame_codec.md R122). -/
def frameBody (payload : List Byte) : List Byte :=
  (toBcd payload.length).1 :: (toBcd payload.length).2 :: (payload ++ [Config.etx])

/-- The frame of a payload: start marker, body, checksum of the body (00_scope.md R3; 40_frame_codec.md R121, R122). -/
def frameOf (payload : List Byte) : List Byte :=
  Config.stx :: (frameBody payload ++ [xorBytes (frameBody payload)])

/-- ENCODE's pseudocode (40_frame_codec.md R122, R123). -/
def encodeResult (s : State) : Result :=
  if s.plen.toNat > Config.maxPayload then .error .payloadTooLarge
  else
    let payload := s.readBytes .pbuf 0 s.plen.toNat
    let framed := s.writeBytes .fbuf 0 (frameOf payload)
    .ok ({ ok := true },
      ({ framed with flen := BitVec.ofNat 16 (s.plen.toNat + Config.frameOverhead) } : State).setRes
        ((xorBytes (frameBody payload)).setWidth 64))

/-- ENCODE (40_frame_codec.md R122). -/
def execEncode (s : State) : Host.Outcome State Fault Refusal := .next (s.commit (encodeResult s))

/-- The length field of the frame in FBUF, {FBUF[1], FBUF[2]} (40_frame_codec.md R127). -/
def State.frameLen (s : State) : BitVec 16 := s.readByte .fbuf 1 ++ s.readByte .fbuf 2

/-- The checksum recomputed over FBUF[1..n-1) (40_frame_codec.md R121, R127). -/
def State.frameLrc (s : State) (n : Nat) : Byte := xorBytes (s.readBytes .fbuf 1 (n - 2))

/-- Whether the recomputed checksum equals the last byte, the only validity test (40_frame_codec.md R127, R129). -/
def State.frameOk (s : State) (n : Nat) : Bool := s.frameLrc n == s.readByte .fbuf (n - 1)

/-- What DECODE and CHECK write for a frame of n bytes: LENFIELD, RES, REPLY (40_frame_codec.md R127). The flags are
`State.frameFlags`. -/
def State.judgeFrame (s : State) (n : Nat) : State :=
  ({ s with
    lenfield := BitVec.ofNat 16 (bcdValue s.frameLen).2 ++ s.frameLen
    reply := verdict (s.frameOk n) } : State).setRes
      ((s.readByte .fbuf (n - 1) ++ s.frameLrc n).setWidth 64)

/-- The flags DECODE and CHECK write for a frame of n bytes (40_frame_codec.md R127, R131). -/
def State.frameFlags (s : State) (n : Nat) : Flags :=
  judgeFlags n (s.frameOk n) (bcdValue s.frameLen) (s.readByte .fbuf 0) (s.readByte .fbuf (n - 2))

/-- DECODE's and CHECK's shared check of FLEN: BOUNDS, then RUNT_FRAME (40_frame_codec.md R127, R128). -/
def checkFlen (n : Nat) (r : Flags × State) : Result :=
  if n > Config.bufSize then .error .bounds
  else if n < Config.frameOverhead then .error .runtFrame
  else .ok r

/-- DECODE's pseudocode (40_frame_codec.md R127). -/
def decodeResult (s : State) : Result :=
  let n := s.flen.toNat
  let payload := s.readBytes .fbuf 3 (n - Config.frameOverhead)
  checkFlen n (s.frameFlags n,
    { (s.judgeFrame n).writeBytes .pbuf 0 payload with plen := BitVec.ofNat 16 (n - Config.frameOverhead) })

/-- DECODE (40_frame_codec.md R127, R128). -/
def execDecode (s : State) : Host.Outcome State Fault Refusal := .next (s.commitJudged (decodeResult s))

/-- CHECK's pseudocode: DECODE without the payload copy and the write of PLEN (40_frame_codec.md R135). -/
def checkResult (s : State) : Result :=
  checkFlen s.flen.toNat (s.frameFlags s.flen.toNat, s.judgeFrame s.flen.toNat)

/-- CHECK (40_frame_codec.md R135). -/
def execCheck (s : State) : Host.Outcome State Fault Refusal := .next (s.commitJudged (checkResult s))

end Sys2Proof.Machine
end

