-- ==== Sys2Proof/Machine/Dispatch.lean ====
section
/-! DEFINITION. The completion of each command (spec/10_state.md R41 step 2; spec/30_encoding.md R94): one arm per
constructor of Instr. -/

namespace Sys2Proof.Machine

/-- The completion of a command (10_state.md R41). -/
def exec (i : Instr) (s : State) : Host.Outcome State Fault Refusal :=
  match i with
  | .nop => Sys2Proof.Machine.execNop s
  | .encode => Sys2Proof.Machine.execEncode s
  | .decode => Sys2Proof.Machine.execDecode s
  | .check => Sys2Proof.Machine.execCheck s
  | .lrc b => Sys2Proof.Machine.execLrc b s
  | .verify b => Sys2Proof.Machine.execVerify b s
  | .bcdenc => Sys2Proof.Machine.execBcdenc s
  | .bcddec => Sys2Proof.Machine.execBcddec s
  | .bcdst addr => Sys2Proof.Machine.execBcdst addr s
  | .bcdld addr => Sys2Proof.Machine.execBcdld addr s
  | .numenc src width addr => Sys2Proof.Machine.execNumenc src width addr s
  | .numdec width addr => Sys2Proof.Machine.execNumdec width addr s
  | .minor rmode scale => Sys2Proof.Machine.execMinor rmode scale s
  | .pad rjust padz width addr => Sys2Proof.Machine.execPad rjust padz width addr s
  | .fldlen width addr => Sys2Proof.Machine.execFldlen width addr s
  | .dateenc addr => Sys2Proof.Machine.execDateenc addr s
  | .datedec addr => Sys2Proof.Machine.execDatedec addr s
  | .tlvnext => Sys2Proof.Machine.execTlvnext s

end Sys2Proof.Machine
end

