-- ==== Sys2Proof/Machine/Engine.lean ====
section
/-! DEFINITION. The command engine's one step: the completion of the command in flight (spec/10_state.md R41;
spec/00_scope.md R15). -/

namespace Sys2Proof.Machine

/-- The completion: the latched word is decoded and performed; a word that names no command ends with ILLEGAL_CMD, and
never writes REPLY (10_state.md R41; 30_encoding.md R95 to R97, R99; 60_exceptions.md R252). -/
def completeInFlight (s : State) : Host.Outcome State Fault Refusal :=
  match Sys2Proof.decode s.cmd with
  | .ok i => exec i s
  | .error _ => .next (s.raise .illegalCmd)

/-- The engine's turn: a completion if a command is in flight; else its step is not enabled and nothing changes
(00_scope.md R15; log 4). -/
def engineTurn (s : State) : Host.Outcome State Fault Refusal :=
  if s.busy then completeInFlight s else .next s

end Sys2Proof.Machine
end

