-- ==== Sys2Proof/Machine/HostPort.lean ====
section
/-! DEFINITION. The host's accesses to the window: regions, legality, the register map, buffer bytes
(spec/20_memory.md R60 to R69; spec/10_state.md R20 to R35, R46). -/

namespace Sys2Proof.Machine

/-! ## Regions and legality -/

/-- Where a window offset lies, with its offset in the register block or its index in a buffer (20_memory.md R61). -/
inductive Region where
  | registers (offset : Nat)
  | buffer (buf : Buf) (index : Nat)
  | reserved
deriving DecidableEq, Repr

/-- The region of a window offset (20_memory.md R61). -/
def regionOf (o : Nat) : Region :=
  if o < Config.pbufBase then .registers o
  else if o < Config.fbufBase then .buffer .pbuf (o - Config.pbufBase)
  else if o < Config.reservedBase then .buffer .fbuf (o - Config.fbufBase)
  else .reserved

/-- How many bytes an access covers (20_memory.md R63). -/
def widthBytes : Width → Nat
  | .w8 => 1
  | .w16 => 2
  | .w32 => 4

/-- A legal access: 32-bit and aligned in the register block, naturally aligned elsewhere. Any other access is a bus
error (20_memory.md R64, R65). -/
def legalAccess (w : Width) (o : Nat) : Bool :=
  match regionOf o with
  | .registers _ => w == .w32 && o % 4 == 0
  | .buffer _ _ => o % widthBytes w == 0
  | .reserved => o % widthBytes w == 0

/-! ## The register map -/

/-- The named registers (10_state.md R20). -/
inductive Reg where
  | id
  | ctrl
  | status
  | errcode
  | cmd
  | plen
  | flen
  | opaLo
  | opaHi
  | opb
  | resLo
  | resHi
  | lenfield
  | flags
  | reply
deriving DecidableEq, Repr

/-- The register at an offset of the register block; a reserved offset names none (10_state.md R20, R34). -/
def regAt : Nat → Option Reg
  | 0x000 => some .id
  | 0x004 => some .ctrl
  | 0x008 => some .status
  | 0x00C => some .errcode
  | 0x010 => some .cmd
  | 0x014 => some .plen
  | 0x018 => some .flen
  | 0x01C => some .opaLo
  | 0x020 => some .opaHi
  | 0x024 => some .opb
  | 0x028 => some .resLo
  | 0x02C => some .resHi
  | 0x030 => some .lenfield
  | 0x034 => some .flags
  | 0x038 => some .reply
  | _ => Option.none

/-- The offset of a register (10_state.md R20). -/
def regOffset : Reg → BitVec 16
  | .id => 0x000
  | .ctrl => 0x004
  | .status => 0x008
  | .errcode => 0x00C
  | .cmd => 0x010
  | .plen => 0x014
  | .flen => 0x018
  | .opaLo => 0x01C
  | .opaHi => 0x020
  | .opb => 0x024
  | .resLo => 0x028
  | .resHi => 0x02C
  | .lenfield => 0x030
  | .flags => 0x034
  | .reply => 0x038

/-- What a register reads as (10_state.md R21 to R33). -/
def readReg (r : Reg) (s : State) : Word :=
  match r with
  | .id => Config.idValue
  | .ctrl => s.ctrlWord
  | .status => s.statusWord
  | .errcode => 0#24 ++ s.errcode.code
  | .cmd => s.cmd
  | .plen => 0#16 ++ s.plen
  | .flen => 0#16 ++ s.flen
  | .opaLo => s.opaLo
  | .opaHi => s.opaHi
  | .opb => s.opb
  | .resLo => s.resLo
  | .resHi => s.resHi
  | .lenfield => s.lenfield
  | .flags => s.flags.word
  | .reply => 0#24 ++ s.reply

/-- A write that is refused while a command is in flight: it is ignored and sets OVR (10_state.md R46). -/
def unlessBusy (s : State) (written : State) : State := if s.busy then { s with ovr := true } else written

/-- A write to CTRL: it stores IE, then acts on SRST (10_state.md R22; 70_reset_and_hazards.md R282). -/
def writeCtrl (d : Word) (s : State) : State :=
  let stored : State := { s with ie := d.getLsbD 0 }
  if d.getLsbD 1 then stored.softReset else stored

/-- A write to STATUS: writing 1 clears DONE and OVR (10_state.md R23). -/
def writeStatus (d : Word) (s : State) : State :=
  { s with done := s.done && !d.getLsbD 1, ovr := s.ovr && !d.getLsbD 3 }

/-- A write to a register (10_state.md R20 to R35, R42, R46). -/
def writeReg (r : Reg) (d : Word) (s : State) : State :=
  match r with
  | .id => s
  | .ctrl => writeCtrl d s
  | .status => writeStatus d s
  | .errcode => s
  | .cmd => unlessBusy s (s.issue d)
  | .plen => unlessBusy s { s with plen := d.extractLsb' 0 16 }
  | .flen => unlessBusy s { s with flen := d.extractLsb' 0 16 }
  | .opaLo => unlessBusy s { s with opaLo := d }
  | .opaHi => unlessBusy s { s with opaHi := d }
  | .opb => unlessBusy s { s with opb := d }
  | .resLo => s
  | .resHi => s
  | .lenfield => s
  | .flags => s
  | .reply => s

/-! ## Buffer words, little-endian -/

/-- The word of bytes, the first in bits 7:0 (20_memory.md R65). -/
def wordOfBytes : List Byte → Word
  | [] => 0
  | b :: rest => (wordOfBytes rest <<< 8) ||| b.setWidth 32

/-- The first n bytes of a word, bits 7:0 first (20_memory.md R65). -/
def bytesOfWord (d : Word) (n : Nat) : List Byte := (List.range n).map (fun k => d.extractLsb' (8 * k) 8)

/-! ## Accesses -/

/-- What a legal read returns (20_memory.md R61, R65; 10_state.md R34). -/
def readWindow (w : Width) (o : Nat) (s : State) : Word :=
  match regionOf o with
  | .registers off => match regAt off with
    | some r => readReg r s
    | Option.none => 0
  | .buffer b i => wordOfBytes (s.readBytes b i (widthBytes w))
  | .reserved => 0

/-- What a legal write does (20_memory.md R61, R65; 10_state.md R34, R46). -/
def writeWindow (w : Width) (o : Nat) (d : Word) (s : State) : State :=
  match regionOf o with
  | .registers off => match regAt off with
    | some r => writeReg r d s
    | Option.none => s
  | .buffer b i => unlessBusy s (s.writeBytes b i (bytesOfWord d (widthBytes w)))
  | .reserved => s

/-- The bus response that the host sees (20_memory.md R66; log 5). -/
def State.respond (s : State) (error : Bool) (data : Word) : State := { s with response := some ⟨error, data⟩ }

/-- One host access, the reset input released: a bus error changes no state of the block; a read has no side effect
(20_memory.md R66, R69). -/
def hostAccess (a : Access) (s : State) : State :=
  match a with
  | .read w o => if legalAccess w o.toNat then s.respond false (readWindow w o.toNat s) else s.respond true 0
  | .write w o d => if legalAccess w o.toNat then (writeWindow w o.toNat d s).respond false 0 else s.respond true 0

/-- A legal write while the reset input is asserted: the registers hold their reset values, so nothing is stored, no
command is issued and OVR stays 0; a write to a buffer leaves the contents unspecified (70_reset_and_hazards.md R280;
log 6). -/
def heldWrite (o : Nat) (s : State) : State :=
  match regionOf o with
  | .registers _ => s
  | .buffer _ _ => s.loseBuffers
  | .reserved => s

/-- A host access while the reset input is asserted: a read returns the reset values, a write is not performed
(70_reset_and_hazards.md R280; log 6). -/
def heldAccess (a : Access) (s : State) : State :=
  match a with
  | .read w o => hostAccess (.read w o) s
  | .write w o _ => if legalAccess w o.toNat then (heldWrite o.toNat s).respond false 0 else s.respond true 0

/-- A host access, by the level of the reset input (20_memory.md R72; 70_reset_and_hazards.md R280). -/
def hostTurn (a : Access) (s : State) : State := if s.inReset then heldAccess a s else hostAccess a s

end Sys2Proof.Machine
end

