-- ==== Sys2Proof/Machine/Step.lean ====
section
/-! DEFINITION. One step of the block: the next turn of the schedule (spec/00_scope.md R15; spec/20_memory.md R72). -/

namespace Sys2Proof.Machine

/-- One step. The next turn is taken off the schedule and made: a host access, the engine's completion or a level
of the reset input. With nothing scheduled, a command in flight completes and an idle block stays as it is (00_scope.md R15;
20_memory.md R72; 70_reset_and_hazards.md R280, R284, R291; log 3). -/
def step (s : State) : Host.Outcome State Fault Refusal :=
  match s.turns with
  | [] => engineTurn s
  | .engine :: rest => engineTurn { s with turns := rest }
  | .host a :: rest => .next (hostTurn a { s with turns := rest })
  | .resetInput level :: rest => .next (({ s with turns := rest } : State).takeResetLevel level)

/-- A command word placed where the next step takes its command from: issued, as a write to CMD issues it
(10_state.md R42) with the reset input released, and the engine's turn put first in the schedule (log 7). -/
def State.withFetchWord (s : State) (nbits w : Nat) : State :=
  { s.issue (BitVec.ofNat 32 (w % 2 ^ nbits)) with inReset := false, turns := .engine :: s.turns }

end Sys2Proof.Machine
end

