-- ==== Sys2Proof/Safety.lean ====
section
/-! DEFINITION. What a safe state of the block is: the invariant every step keeps, and the outcome claims use. -/

namespace Sys2Proof.Machine

/-- Both buffers are in canonical form (log 2). -/
abbrev BuffersCanonical (s : State) : Prop := s.pbuf.wf ∧ s.fbuf.wf

/-- REPLY holds no verdict, ACK or NAK (10_state.md R33). -/
abbrev ReplyLegal (s : State) : Prop := s.reply = 0 ∨ s.reply = Config.ack ∨ s.reply = Config.nak

/-- After an error FLAGS is 0 (10_state.md R32). -/
abbrev ErrorClearsFlags (s : State) : Prop := s.errcode ≠ .none → s.flags = {}

/-- A command in flight has not completed: BUSY and DONE are not both 1 (10_state.md R41, R42). -/
abbrev BusyNotDone (s : State) : Prop := s.busy = true → s.done = false

/-- VALUE of LENFIELD is the decimal value of RAW when RAW is valid BCD, else 0 (10_state.md R31). -/
abbrev LenfieldConsistent (s : State) : Prop :=
  (s.lenfield.extractLsb' 16 16).toNat = (bcdValue (s.lenfield.extractLsb' 0 16)).2

/-- FLAGS.LENMATCH = 1 only with FLAGS.LENBCD = 1 (10_state.md R32). -/
abbrev MatchNeedsBcd (s : State) : Prop := s.flags.lenmatch = true → s.flags.lenbcd = true

/-- While the reset input is asserted every register holds its reset value, no command is in flight and no buffer byte
is written (70_reset_and_hazards.md R280). -/
abbrev ResetHolds (s : State) : Prop :=
  s.inReset = true →
    s = { State.reset with inReset := true, epoch := s.epoch, turns := s.turns, response := s.response }

/-- The invariant of the block. -/
abbrev BlockInv (s : State) : Prop :=
  BuffersCanonical s ∧ ReplyLegal s ∧ ErrorClearsFlags s ∧ BusyNotDone s ∧ LenfieldConsistent s ∧
    MatchNeedsBcd s ∧ ResetHolds s

/-- A safe outcome: a next state that meets the invariant, no fault and no refusal. -/
abbrev SafeOutcome : Host.Outcome State Fault Refusal → Prop
  | .next s => BlockInv s
  | .fault _ => False
  | .refused _ => False

/-- The PBUF column of the write table, as (index, length), for the commands whose fields name the range; DECODE, whose
range depends on FLEN, is not among them (10_state.md R45). -/
def pbufRange : Instr → Option (Nat × Nat)
  | .nop => Option.none
  | .encode => Option.none
  | .decode => Option.none
  | .check => Option.none
  | .lrc _ => Option.none
  | .verify _ => Option.none
  | .bcdenc => Option.none
  | .bcddec => Option.none
  | .bcdst addr => some (addr.toNat, 2)
  | .bcdld _ => Option.none
  | .numenc _ width addr => some (addr.toNat, width.toNat)
  | .numdec _ _ => Option.none
  | .minor _ _ => Option.none
  | .pad _ _ width addr => some (addr.toNat, width.toNat)
  | .fldlen _ _ => Option.none
  | .dateenc addr => some (addr.toNat, Config.dateWidth)
  | .datedec _ => Option.none
  | .tlvnext => Option.none

/-- The RES column of the write table (10_state.md R45). -/
def writesRes : Instr → Bool
  | .nop => false
  | .encode => true
  | .decode => true
  | .check => true
  | .lrc _ => true
  | .verify _ => true
  | .bcdenc => true
  | .bcddec => true
  | .bcdst _ => true
  | .bcdld _ => true
  | .numenc _ _ _ => false
  | .numdec _ _ => true
  | .minor _ _ => true
  | .pad _ _ _ _ => false
  | .fldlen _ _ => true
  | .dateenc _ => false
  | .datedec _ => true
  | .tlvnext => true

end Sys2Proof.Machine
end

