-- ==== Sys2Proof/Certificates/Slice0/Obligations.lean ====
section
/-! DEFINITION. The statements about the model, for the provers. Each docstring names the rules of spec/ it formalises.
A next state is given as the old one with the fields that change; where such an equation says `response := t.response`,
the model's own register of the bus response (log 5) is left open. `hostAccess` is an access while the reset input is
released, `hostTurn` an access at either level of it (70_reset_and_hazards.md R280). -/

section
open Sys2Proof Sys2Proof.Machine

/-! ## Encoding -/

/-- Decoding the encoded word of a well-formed command gives the command back, with every operand at every value
(30_encoding.md R91, R93, R99). -/
def Obligations.DecodeOfEncodeIsTheCommand : Prop :=
  ∀ i : Instr, WellFormed i → decode (encode i) = .ok i

/-- A word that decodes to a command is that command's encoding, and the command's field values are legal: each legal
word has one meaning and no reserved bit is dropped (30_encoding.md R94, R95, R97, R99). -/
def Obligations.EncodeOfDecodeIsTheWord : Prop :=
  ∀ (c : Word) (i : Instr), decode c = .ok i → encode i = c ∧ WellFormed i

/-- The decoder, written from the formats of R91, agrees with the match and mask columns of the opcode map of R94: at
most one row selects a word, a decoded command is one of the row that selects its word, and no row selects a word
exactly when it is rejected for its opcode or its reserved bits (30_encoding.md R94, R99). -/
def Obligations.DecoderFollowsTheOpcodeMap : Prop :=
  (∀ (c : Word) (r q : OpcodeRow), r ∈ opcodeTable → q ∈ opcodeTable → r.selects c → q.selects c → r = q) ∧
  (∀ (c : Word) (i : Instr), decode c = .ok i → ∃ r ∈ opcodeTable, r.selects c ∧ r.mnemonic = mnemonicOf i) ∧
  (∀ c : Word, (∀ r ∈ opcodeTable, ¬ r.selects c) ↔
    (decode c = .error .reservedOpcode ∨ decode c = .error .reservedBits))

/-- Words written out in the spec decode to the commands they stand for, one of each format (30_encoding.md R100;
40_frame_codec.md R122; 41_bcd.md R161; 42_checksum.md R173; 43_field_marshal.md R192, R201, R207, R212). -/
def Obligations.SpecWordsDecode : Prop :=
  decode 0x08000000 = .ok .encode ∧ decode 0x20000001 = .ok (.lrc .fbuf) ∧
  decode 0x40000100 = .ok (.bcdst 0x100) ∧ decode 0x50030005 = .ok (.numenc .opa 12 5) ∧
  decode 0x500B0005 = .ok (.numenc .res 12 5) ∧ decode 0x60000022 = .ok (.minor .away 2) ∧
  decode 0x68C50011 = .ok (.pad .right .zero 20 0x11) ∧ decode 0x70020040 = .ok (.fldlen 8 0x40)

/-- Which words are illegal, and why: a reserved opcode, a reserved bit of a known opcode's format, a WIDTH or SCALE
out of range; and the completion of any illegal word, CHECK's and DECODE's opcodes included, writes ERRCODE
ILLEGAL_CMD, FLAGS 0, BUSY 0, DONE 1 and nothing else (30_encoding.md R95, R96, R97; 60_exceptions.md R252). -/
def Obligations.IllegalWordsEndInIllegalCmd : Prop :=
  (∀ c : Word, 0x12 ≤ (c.extractLsb' 27 5).toNat → decode c = .error .reservedOpcode) ∧
  (∀ c : Word, (c.extractLsb' 27 5).toNat ≤ 0x11 → (∀ r ∈ opcodeTable, ¬ r.selects c) →
    decode c = .error .reservedBits) ∧
  (∀ c : Word, (c &&& 0xFFF00000 = 0x50000000 ∨ c &&& 0xFFF80000 = 0x58000000) →
    ((c.extractLsb' 14 5).toNat = 0 ∨ 20 < (c.extractLsb' 14 5).toNat) → decode c = .error .fieldValue) ∧
  (∀ c : Word, c &&& 0xFFFFFFC0 = 0x60000000 → 19 < (c.extractLsb' 0 5).toNat → decode c = .error .fieldValue) ∧
  (∀ c : Word, (c &&& 0xFF000000 = 0x68000000 ∨ c &&& 0xFFC00000 = 0x70000000) →
    (c.extractLsb' 14 8).toNat = 0 → decode c = .error .fieldValue) ∧
  (∀ (s : State) (e : IllegalWord), decode s.cmd = .error e →
    completeInFlight s =
      .next { s with errcode := .illegalCmd, flags := {}, busy := false, done := true })

/-! ## The step -/

/-- A step with a command in flight, on the engine's turn or with nothing scheduled, is exec of the decoded command;
an engine's turn or an empty schedule while idle changes nothing else (00_scope.md R15; 10_state.md R41; the schedule
is the model's choice, log 3 and log 4). -/
def Obligations.StepPerformsTheDecodedCommand : Prop :=
  (∀ (s : State) (i : Instr) (rest : List Turn), s.busy = true → decode s.cmd = .ok i →
    s.turns = .engine :: rest → step s = exec i { s with turns := rest }) ∧
  (∀ (s : State) (i : Instr), s.busy = true → decode s.cmd = .ok i → s.turns = [] → step s = exec i s) ∧
  (∀ (s : State) (rest : List Turn), s.busy = false → s.turns = .engine :: rest →
    step s = .next { s with turns := rest }) ∧
  (∀ s : State, s.busy = false → s.turns = [] → step s = .next s)

/-- A step on a host's turn makes that one access; while the reset input is asserted a read is made, and a write
changes no register, issues nothing and stores no byte (00_scope.md R15; 20_memory.md R72; 70_reset_and_hazards.md
R280; the schedule is the model's choice, log 3, and so is the form of an access during a reset, log 6). -/
def Obligations.StepMakesTheHostAccess : Prop :=
  ∀ (s : State) (a : Access) (rest : List Turn), s.turns = .host a :: rest →
    (s.inReset = false → step s = .next (hostAccess a { s with turns := rest })) ∧
    (s.inReset = true →
      (∀ (w : Width) (o : BitVec 16), a = .read w o →
        step s = .next (hostAccess (.read w o) { s with turns := rest })) ∧
      (∀ (w : Width) (o : BitVec 16) (d : Word), a = .write w o d → ∃ t : State, step s = .next t ∧
        t = { s with turns := rest, pbuf := t.pbuf, fbuf := t.fbuf, epoch := t.epoch, response := t.response } ∧
        (t.pbuf = s.pbuf ∧ t.fbuf = s.fbuf ∧ t.epoch = s.epoch ∨
          ∀ (b : Buf) (k : Nat), t.readByte b k = Config.powerOnByte (s.epoch + 1) (bufBase b + k))))

/-- No step stops: every state has a next state. The spec gives the block no trap (60_exceptions.md R252, R255, R258);
that nothing else stops it is DEDUCED, log 12, and that an idle block's engine turn and empty schedule have a next state
too is the model's choice, log 3 and log 4. -/
def Obligations.NoStepStops : Prop :=
  ∀ s : State, ∃ t : State, step s = .next t

/-- A command in flight completes at the engine's turn, whatever it is: one step ends with BUSY 0 and DONE 1
(10_state.md R41; 70_reset_and_hazards.md R291; the schedule is the model's choice, log 3). -/
def Obligations.CommandInFlightCompletes : Prop :=
  ∀ (s : State) (rest : List Turn), s.busy = true → s.turns = .engine :: rest →
    ∃ t : State, step s = .next t ∧ t.busy = false ∧ t.done = true ∧ t.turns = rest ∧ t.cmd = s.cmd ∧ t.ie = s.ie

/-! ## Host accesses -/

/-- The issue of a command: a host write of any word to CMD while idle latches it, clears DONE and sets BUSY, and
changes nothing else (10_state.md R42). -/
def Obligations.IssueLatchesTheCommand : Prop :=
  ∀ (s : State) (w : Word), s.busy = false →
    ∃ t : State, hostAccess (.write .w32 0x010 w) s = t ∧
      t = { s with cmd := w, done := false, busy := true, response := t.response }

/-- Writes while a command is in flight: to CMD, PLEN, FLEN, OPA_LO, OPA_HI, OPB or a buffer byte they are ignored and
set OVR; to CTRL and STATUS they are performed; to any other offset they are ignored and do not set OVR. Reads are
performed and change nothing (10_state.md R46). -/
def Obligations.WritesWhileBusyAreRefused : Prop :=
  ∀ (s : State) (w : Width) (o : BitVec 16) (d : Word), s.busy = true → legalAccess w o.toNat = true →
    ∃ t : State, hostAccess (.write w o d) s = t ∧
      ((o.toNat ∈ [0x010, 0x014, 0x018, 0x01C, 0x020, 0x024] ∨ 0x4000 ≤ o.toNat ∧ o.toNat < 0xC000) →
        t = { s with ovr := true, response := t.response }) ∧
      (o.toNat = 0x008 → t = { s with
        done := s.done && !d.getLsbD 1, ovr := s.ovr && !d.getLsbD 3, response := t.response }) ∧
      (o.toNat = 0x004 → d.getLsbD 1 = false → t = { s with ie := d.getLsbD 0, response := t.response }) ∧
      (o.toNat = 0x004 → d.getLsbD 1 = true → t.busy = false ∧ t.ovr = false ∧ t.ie = false) ∧
      ((o.toNat ∈ [0x000, 0x00C, 0x028, 0x02C, 0x030, 0x034, 0x038] ∨ 0x03C ≤ o.toNat ∧ o.toNat < 0x4000 ∨
        0xC000 ≤ o.toNat) → t = { s with response := t.response }) ∧
      hostAccess (.read w o) s = { s with response := some ⟨false, readWindow w o.toNat s⟩ }

/-- A bus error, which is an access to the register block that is not 32-bit and aligned or an unaligned access
elsewhere, changes no state of the block and gives the error response, with data 0 for a read (20_memory.md R64, R65,
R66; 60_exceptions.md R255). That any other access, a write that is ignored or refused while busy included, gives no
error response is DEDUCED, log 17. -/
def Obligations.BusErrorsChangeNothing : Prop :=
  ∀ (s : State) (w : Width) (o : BitVec 16) (d : Word),
    (((o.toNat < 0x4000 ∧ (w ≠ .w32 ∨ o.toNat % 4 ≠ 0)) ∨
      (0x4000 ≤ o.toNat ∧ (w = .w16 ∧ o.toNat % 2 ≠ 0 ∨ w = .w32 ∧ o.toNat % 4 ≠ 0))) →
        hostAccess (.read w o) s = { s with response := some ⟨true, 0⟩ } ∧
        ∃ v : Word, hostAccess (.write w o d) s = { s with response := some ⟨true, v⟩ }) ∧
    (¬ ((o.toNat < 0x4000 ∧ (w ≠ .w32 ∨ o.toNat % 4 ≠ 0)) ∨
      (0x4000 ≤ o.toNat ∧ (w = .w16 ∧ o.toNat % 2 ≠ 0 ∨ w = .w32 ∧ o.toNat % 4 ≠ 0))) →
        ∀ a ∈ [Access.read w o, Access.write w o d], ∃ v : Word, (hostAccess a s).response = some ⟨false, v⟩)

/-- A read changes nothing, and the same read again gives the same data (20_memory.md R69). -/
def Obligations.ReadsHaveNoSideEffect : Prop :=
  ∀ (s : State) (w : Width) (o : BitVec 16), ∃ t : State, hostAccess (.read w o) s = t ∧
    t = { s with response := t.response } ∧ (hostAccess (.read w o) t).response = t.response

/-- What each register reads as, its bits as sums of powers of two (10_state.md R20 to R33), and the numbers of the
error codes, 0 to 10, each its own (60_exceptions.md R250). -/
def Obligations.RegisterMapReads : Prop :=
  (∀ s : State, ∀ bit : Bool → Nat, bit false = 0 → bit true = 1 →
    ∀ p ∈ [((0x000 : BitVec 16), (0x46434D07 : Nat)), (0x004, bit s.ie),
      (0x008, bit s.busy + 2 * bit s.done + 4 * bit (decide (s.errcode ≠ .none)) + 8 * bit s.ovr),
      (0x00C, s.errcode.code.toNat), (0x010, s.cmd.toNat), (0x014, s.plen.toNat), (0x018, s.flen.toNat),
      (0x01C, s.opaLo.toNat), (0x020, s.opaHi.toNat), (0x024, s.opb.toNat), (0x028, s.resLo.toNat),
      (0x02C, s.resHi.toNat), (0x030, s.lenfield.toNat),
      (0x034, bit s.flags.ok + 2 * bit s.flags.lenbcd + 4 * bit s.flags.lenmatch + 8 * bit s.flags.stxok +
        16 * bit s.flags.etxok + 32 * bit s.flags.nul + 64 * bit s.flags.endOfField),
      (0x038, s.reply.toNat)],
    (hostAccess (.read .w32 p.1) s).response = some ⟨false, BitVec.ofNat 32 p.2⟩) ∧
  [ErrCode.none, .illegalCmd, .payloadTooLarge, .outOfRange, .badBcd, .runtFrame, .badDigit, .tooLong, .bounds,
    .truncated, .badDate].map (fun e => e.code.toNat) = List.range 11

/-- A reserved offset of the register block, accessed as R64 allows, and any legally accessed offset of the reserved
region reads 0, ignores writes, and is no bus error (10_state.md R34; 20_memory.md R61). -/
def Obligations.ReservedOffsetsReadZero : Prop :=
  ∀ (s : State) (w : Width) (o : BitVec 16) (d : Word),
    ((w = .w32 ∧ o.toNat % 4 = 0 ∧ 0x03C ≤ o.toNat ∧ o.toNat < 0x4000) ∨
      (0xC000 ≤ o.toNat ∧ o.toNat % widthBytes w = 0)) →
    hostAccess (.read w o) s = { s with response := some ⟨false, 0⟩ } ∧
    ∃ v : Word, hostAccess (.write w o d) s = { s with response := some ⟨false, v⟩ }

/-- A write to a read-only register is ignored, and a write to STATUS leaves BUSY and ERR: no error response and no
OVR (10_state.md R35). -/
def Obligations.ReadOnlyRegistersIgnoreWrites : Prop :=
  (∀ (s : State) (d : Word), ∀ o ∈ [(0x000 : BitVec 16), 0x00C, 0x028, 0x02C, 0x030, 0x034, 0x038],
    ∃ v : Word, hostAccess (.write .w32 o d) s = { s with response := some ⟨false, v⟩ }) ∧
  (∀ (s : State) (d : Word), ∃ t : State, hostAccess (.write .w32 0x008 d) s = t ∧ t.busy = s.busy ∧
    t.err = s.err ∧ (t.ovr = true → s.ovr = true) ∧ ∃ v : Word, t.response = some ⟨false, v⟩)

/-- A buffer write while idle stores the datum little-endian, the byte at the lowest offset from bits 7:0, and leaves
every other byte of both buffers and every register alone (20_memory.md R62, R63, R65, R69). That an 8-bit or 16-bit
write takes its datum from the low bits of the 32-bit data is DEDUCED, log 15. -/
def Obligations.BufferWriteIsLittleEndian : Prop :=
  ∀ (s : State) (w : Width) (b : Buf) (i : Nat) (o : BitVec 16) (d : Word), s.busy = false →
    i < 16384 → o.toNat = bufBase b + i → i % widthBytes w = 0 →
    ∃ t : State, hostAccess (.write w o d) s = t ∧
      t = { s with pbuf := t.pbuf, fbuf := t.fbuf, response := t.response } ∧
      (∀ k < widthBytes w, (t.readByte b (i + k)).toNat = d.toNat / 256 ^ k % 256) ∧
      (∀ j, j < i ∨ i + widthBytes w ≤ j → t.readByte b j = s.readByte b j) ∧
      (∀ c, c ≠ b → ∀ j, t.readByte c j = s.readByte c j)

/-- A buffer read returns the bytes little-endian, also while a command is in flight (20_memory.md R62, R65;
10_state.md R46). -/
def Obligations.BufferReadIsLittleEndian : Prop :=
  ∀ (s : State) (w : Width) (b : Buf) (i : Nat) (o : BitVec 16),
    i < 16384 → o.toNat = bufBase b + i → i % widthBytes w = 0 →
    ∃ v : Word, (hostAccess (.read w o) s).response = some ⟨false, v⟩ ∧
      v.toNat = ∑ k ∈ Finset.range (widthBytes w), (s.readByte b (i + k)).toNat * 256 ^ k

/-- Writes to the operand registers while idle: PLEN and FLEN take bits 15:0, OPA_LO, OPA_HI and OPB all 32 bits, and
nothing else changes (10_state.md R26, R27, R28, R29; 20_memory.md R69). -/
def Obligations.OperandRegisterWrites : Prop :=
  ∀ (s : State) (d : Word), s.busy = false →
    (∃ t : State, hostAccess (.write .w32 0x014 d) s = t ∧
      t = { s with plen := BitVec.ofNat 16 d.toNat, response := t.response }) ∧
    (∃ t : State, hostAccess (.write .w32 0x018 d) s = t ∧
      t = { s with flen := BitVec.ofNat 16 d.toNat, response := t.response }) ∧
    (∃ t : State, hostAccess (.write .w32 0x01C d) s = t ∧ t = { s with opaLo := d, response := t.response }) ∧
    (∃ t : State, hostAccess (.write .w32 0x020 d) s = t ∧ t = { s with opaHi := d, response := t.response }) ∧
    (∃ t : State, hostAccess (.write .w32 0x024 d) s = t ∧ t = { s with opb := d, response := t.response })

/-- A write to STATUS clears DONE and OVR where it writes 1 and leaves them where it writes 0; BUSY, ERRCODE and the
rest stay, whether a command is in flight or not (10_state.md R23; 60_exceptions.md R259). -/
def Obligations.StatusWriteClearsOnes : Prop :=
  ∀ (s : State) (d : Word), ∃ t : State, hostAccess (.write .w32 0x008 d) s = t ∧
    t = { s with done := t.done, ovr := t.ovr, response := t.response } ∧
    (t.done = true ↔ s.done = true ∧ d.toNat / 2 % 2 = 0) ∧
    (t.ovr = true ↔ s.ovr = true ∧ d.toNat / 8 % 2 = 0)

/-- A write to CTRL with SRST 0 stores IE and nothing else; with SRST 1 it is the soft reset: every register at its
reset value, IE included, no command in flight, the buffers kept, also while BUSY = 1 (10_state.md R22;
70_reset_and_hazards.md R282). -/
def Obligations.CtrlWriteAndSoftReset : Prop :=
  ∀ (s : State) (d : Word), ∃ t : State, hostAccess (.write .w32 0x004 d) s = t ∧
    (d.toNat / 2 % 2 = 0 → t = { s with ie := decide (d.toNat % 2 = 1), response := t.response }) ∧
    (d.toNat / 2 % 2 = 1 → t = { s with
      ie := false, busy := false, done := false, ovr := false, errcode := .none, cmd := 0, plen := 0, flen := 0,
      opaLo := 0, opaHi := 0, opb := 0, resLo := 0, resHi := 0, lenfield := 0, flags := {}, reply := 0,
      response := t.response })

/-- A soft reset made while a command is in flight aborts it: after the reset and the engine's next turn every buffer
byte is as before, and no completion was signalled (70_reset_and_hazards.md R283; the schedule is the model's choice,
log 3 and log 4). -/
def Obligations.SoftResetAbortsTheCommand : Prop :=
  ∀ (s : State) (d : Word) (rest : List Turn), s.inReset = false → s.busy = true → d.getLsbD 1 = true →
    s.turns = .host (.write .w32 0x004 d) :: .engine :: rest →
    ∃ t : State, Host.Core.run core 2 s = .next t ∧ t.turns = rest ∧ t.busy = false ∧ t.done = false ∧
      t.irq = false ∧ ∀ (b : Buf) (k : Nat), t.readByte b k = s.readByte b k

/-- The state after reset: a read of each register gives its reset value, and irq is 0 (70_reset_and_hazards.md R280,
R281; 10_state.md R20). -/
def Obligations.ResetRegisterValues : Prop :=
  (∀ p ∈ [((0x000 : BitVec 16), (0x46434D07 : Word)), (0x004, 0), (0x008, 0), (0x00C, 0), (0x010, 0), (0x014, 0),
      (0x018, 0), (0x01C, 0), (0x020, 0), (0x024, 0), (0x028, 0), (0x02C, 0), (0x030, 0), (0x034, 0), (0x038, 0)],
    (hostAccess (.read .w32 p.1) State.reset).response = some ⟨false, p.2⟩) ∧
  State.reset.irq = false

/-- The hardware reset: asserting the reset input in any state, and releasing it, leave every register at its reset
value, no command in flight, irq 0 and every buffer byte a free draw of its own (70_reset_and_hazards.md R280, R281;
10_state.md R38; the draw and the turns are the model's choice of form, log 1 and log 6). -/
def Obligations.HardwareResetClearsTheBlock : Prop :=
  ∀ (s : State) (level : Bool) (rest : List Turn), s.turns = .resetInput level :: rest →
    level = true ∨ s.inReset = true →
    ∃ t : State, step s = .next t ∧
      t = { s with
        ie := false, busy := false, done := false, ovr := false, errcode := .none, cmd := 0, plen := 0, flen := 0,
        opaLo := 0, opaHi := 0, opb := 0, resLo := 0, resHi := 0, lenfield := 0, flags := {}, reply := 0,
        pbuf := t.pbuf, fbuf := t.fbuf, inReset := level, epoch := s.epoch + 1, turns := rest,
        response := t.response } ∧
      (∀ (b : Buf) (k : Nat), t.readByte b k = Config.powerOnByte (s.epoch + 1) (bufBase b + k)) ∧ t.irq = false

/-- The interrupt line is IE and DONE. It is high after a completion when IE = 1, low after an issue, after a write of
1 to DONE and after a soft reset (10_state.md R44; 60_exceptions.md R256, R259). -/
def Obligations.InterruptFollowsCompletion : Prop :=
  (∀ (i : Instr) (s t : State), exec i s = .next t → t.irq = s.ie) ∧
  (∀ (s : State) (w : Word), s.busy = false → (hostAccess (.write .w32 0x010 w) s).irq = false) ∧
  (∀ (s : State) (d : Word), d.getLsbD 1 = true →
    (hostAccess (.write .w32 0x008 d) s).irq = false ∧ (hostAccess (.write .w32 0x004 d) s).irq = false)

/-- A write of 1 to DONE and a completion, in both orders: the completion last leaves DONE 1, the write last leaves
DONE 0 (60_exceptions.md R257; the order is the schedule's, which is the model's choice, log 3). -/
def Obligations.BothOrdersOfClearAndCompletion : Prop :=
  ∀ (s : State) (rest : List Turn), s.inReset = false → s.busy = true →
    (s.turns = .host (.write .w32 0x008 2) :: .engine :: rest →
      ∃ t : State, Host.Core.run core 2 s = .next t ∧ t.done = true ∧ t.busy = false) ∧
    (s.turns = .engine :: .host (.write .w32 0x008 2) :: rest →
      ∃ t : State, Host.Core.run core 2 s = .next t ∧ t.done = false ∧ t.busy = false)

/-- While a command is in flight no host access, but for a soft reset, changes its word, its operands, a buffer or a
result: the command uses exactly what stood there at its issue (20_memory.md R75; 10_state.md R46). -/
def Obligations.CommandOperandsAreFrozen : Prop :=
  ∀ (s : State) (a : Access), s.busy = true →
    (∀ (w : Width) (o : BitVec 16) (d : Word), a = .write w o d → o = 0x004 → d.getLsbD 1 = false) →
    ∃ t : State, hostAccess a s = t ∧
      t = { s with ie := t.ie, done := t.done, ovr := t.ovr, response := t.response }

/-! ## Frame codec -/

/-- NOP writes ERRCODE 0, FLAGS 0, BUSY 0 and DONE 1 and nothing else; its word is 0 (40_frame_codec.md R120). -/
def Obligations.NopOnlyCompletes : Prop :=
  decode 0 = .ok .nop ∧
  ∀ s : State, exec .nop s = .next { s with errcode := .none, flags := {}, busy := false, done := true }

/-- ENCODE, the word 0x08000000. With a payload of at most 9999 bytes it writes the frame: STX, the BCD length, the
payload, ETX and the XOR of the bytes between, sets FLEN, RES and FLAGS = OK, and leaves the other FBUF bytes and
everything else alone. With PLEN above 9999 it raises PAYLOAD_TOO_LARGE and writes no FBUF byte, FLEN or RES
(40_frame_codec.md R121, R122, R123; 00_scope.md R3). -/
def Obligations.EncodeBuildsTheFrame : Prop :=
  decode 0x08000000 = .ok .encode ∧
  (∀ s : State, s.plen.toNat ≤ 9999 →
    ∃ t : State, exec .encode s = .next t ∧
      t = { s with
        fbuf := t.fbuf, flen := t.flen, resLo := t.resLo, resHi := t.resHi, errcode := .none, flags := { ok := true },
        busy := false, done := true } ∧
      t.flen.toNat = s.plen.toNat + 5 ∧
      t.readByte .fbuf 0 = 0x02 ∧
      (t.readByte .fbuf 1).toNat = 16 * (s.plen.toNat / 1000) + s.plen.toNat / 100 % 10 ∧
      (t.readByte .fbuf 2).toNat = 16 * (s.plen.toNat / 10 % 10) + s.plen.toNat % 10 ∧
      (∀ k < s.plen.toNat, t.readByte .fbuf (3 + k) = s.readByte .pbuf k) ∧
      t.readByte .fbuf (s.plen.toNat + 3) = 0x03 ∧
      t.readByte .fbuf (s.plen.toNat + 4) = xorBytes (t.readBytes .fbuf 1 (s.plen.toNat + 3)) ∧
      t.res = (t.readByte .fbuf (s.plen.toNat + 4)).setWidth 64 ∧
      (∀ k, s.plen.toNat + 5 ≤ k → t.readByte .fbuf k = s.readByte .fbuf k)) ∧
  (∀ s : State, 9999 < s.plen.toNat →
    exec .encode s = .next { s with errcode := .payloadTooLarge, flags := {}, busy := false, done := true })

/-- DECODE of 5 to 16384 bytes: the payload goes to PBUF and PLEN whatever the length field says, LENFIELD, RES, the
five flags and REPLY record what was seen, OK and REPLY depend on the checksum alone, and nothing else changes
(40_frame_codec.md R127, R129, R134). -/
def Obligations.DecodeJudgesTheFrame : Prop :=
  ∀ (s : State) (n : Nat) (x : Byte) (raw : BitVec 16), s.flen.toNat = n → 5 ≤ n → n ≤ 16384 →
    xorBytes (s.readBytes .fbuf 1 (n - 2)) = x → s.readByte .fbuf 1 ++ s.readByte .fbuf 2 = raw →
    ∃ t : State, exec .decode s = .next t ∧
      t = { s with
        pbuf := t.pbuf, plen := t.plen, lenfield := t.lenfield, resLo := t.resLo, resHi := t.resHi, reply := t.reply,
        errcode := .none, flags := t.flags, busy := false, done := true } ∧
      (∀ k < n - 5, t.readByte .pbuf k = s.readByte .fbuf (3 + k)) ∧
      (∀ k, n - 5 ≤ k → t.readByte .pbuf k = s.readByte .pbuf k) ∧
      t.plen.toNat = n - 5 ∧
      t.lenfield.toNat = 65536 * (bcdValue raw).2 + raw.toNat ∧
      t.res.toNat = 256 * (s.readByte .fbuf (n - 1)).toNat + x.toNat ∧
      t.flags = {
        ok := decide (x = s.readByte .fbuf (n - 1)), lenbcd := (bcdValue raw).1,
        lenmatch := decide ((bcdValue raw).1 = true ∧ (bcdValue raw).2 = n - 5),
        stxok := decide (s.readByte .fbuf 0 = 0x02), etxok := decide (s.readByte .fbuf (n - 2) = 0x03) } ∧
      (t.reply = 0x06 ↔ x = s.readByte .fbuf (n - 1)) ∧ (t.reply = 0x15 ↔ x ≠ s.readByte .fbuf (n - 1))

/-- CHECK, the word 0x18000000, completes from every state as DECODE does from it, errors and REPLY included, but PBUF
and PLEN stay (40_frame_codec.md R135). -/
def Obligations.CheckIsDecodeWithoutTheCopy : Prop :=
  decode 0x18000000 = .ok .check ∧
  ∀ s : State, ∃ t u : State, exec .check s = .next t ∧ exec .decode s = .next u ∧
    t = { u with pbuf := s.pbuf, plen := s.plen }

/-- DECODE and CHECK with FLEN above 16384 raise BOUNDS and with FLEN below 5 raise RUNT_FRAME; either way REPLY is NAK
and nothing else changes (40_frame_codec.md R128; 60_exceptions.md R252). -/
def Obligations.BadFrameLengthIsAnError : Prop :=
  ∀ s : State, ∀ i ∈ [Instr.decode, Instr.check],
    (16384 < s.flen.toNat → exec i s = .next { s with
      errcode := .bounds, flags := {}, busy := false, done := true, reply := 0x15 }) ∧
    (s.flen.toNat < 5 → exec i s = .next { s with
      errcode := .runtFrame, flags := {}, busy := false, done := true, reply := 0x15 })

/-- The source's round trip: an ENCODE and, after its completion, a DECODE give back the payload, PLEN, FLAGS = 0x1F
and REPLY = ACK. Four steps of the machine: issue, completion, issue, completion (40_frame_codec.md R137; the schedule
is the model's choice, log 3). -/
def Obligations.FrameRoundTrip : Prop :=
  ∀ (s : State) (rest : List Turn), s.inReset = false → s.busy = false → s.plen.toNat ≤ 9999 →
    s.turns = .host (.write .w32 0x010 0x08000000) :: .engine :: .host (.write .w32 0x010 0x10000000) ::
      .engine :: rest →
    ∃ t : State, Host.Core.run core 4 s = .next t ∧ t.turns = rest ∧ t.errcode = .none ∧
      (∀ k, t.readByte .pbuf k = s.readByte .pbuf k) ∧ t.plen = s.plen ∧
      t.flags.word = 0x1F ∧ t.reply = 0x06

/-- Flipping any one bit of FBUF[1..n-1) of an encoded frame makes DECODE, CHECK and VERIFY report OK = 0, and DECODE
and CHECK answer NAK; a second flip of the same bit position in another byte of that range cancels, so all three report
OK = 1 (40_frame_codec.md R138). -/
def Obligations.SingleBitErrorsAreDetected : Prop :=
  ∀ (s t u : State) (n j bit : Nat), s.plen.toNat ≤ 9999 → exec .encode s = .next t → t.flen.toNat = n →
    1 ≤ j → j < n - 1 → bit < 8 →
    u = t.writeBytes .fbuf j [t.readByte .fbuf j ^^^ BitVec.twoPow 8 bit] →
    (∀ i ∈ [Instr.decode, Instr.check], ∃ v : State, exec i u = .next v ∧ v.errcode = .none ∧
      v.flags.ok = false ∧ v.reply = 0x15) ∧
    (∃ v : State, exec (.verify .fbuf) { u with
        opb := BitVec.ofNat 16 (n - 2) ++ 1#16, opaHi := 0,
        opaLo := (t.readByte .fbuf (n - 1)).setWidth 32 } = .next v ∧
      v.errcode = .none ∧ v.flags.ok = false) ∧
    (∀ l : Nat, 1 ≤ l → l < n - 1 → l ≠ j → ∀ i ∈ [Instr.decode, Instr.check], ∃ v : State,
      exec i (u.writeBytes .fbuf l [u.readByte .fbuf l ^^^ BitVec.twoPow 8 bit]) = .next v ∧
        v.errcode = .none ∧ v.flags.ok = true) ∧
    (∀ l : Nat, 1 ≤ l → l < n - 1 → l ≠ j →
      ∃ v : State, exec (.verify .fbuf) { u.writeBytes .fbuf l [u.readByte .fbuf l ^^^ BitVec.twoPow 8 bit] with
          opb := BitVec.ofNat 16 (n - 2) ++ 1#16, opaHi := 0,
          opaLo := (t.readByte .fbuf (n - 1)).setWidth 32 } = .next v ∧
        v.errcode = .none ∧ v.flags.ok = true)

/-! ## Checksum -/

/-- The checksum, bit by bit: bit k is 1 exactly when an odd number of bytes have a 1 in bit k; so the empty string
gives 0x00 and the order of the bytes does not matter (42_checksum.md R170, R178). -/
def Obligations.ChecksumIsBitParity : Prop :=
  (∀ (bytes : List Byte) (k : Nat),
    (xorBytes bytes).getLsbD k = decide (bytes.countP (fun b => b.getLsbD k) % 2 = 1)) ∧
  xorBytes [] = 0x00 ∧ ∀ p q : List Byte, p.Perm q → xorBytes p = xorBytes q

/-- LRC of a range START = OPB[15:0], COUNT = OPB[31:16] that ends at or below 16384 puts the XOR of the range in RES
and changes nothing else; a longer range, the sum not wrapping, is BOUNDS (42_checksum.md R171, R172). -/
def Obligations.LrcOfARange : Prop :=
  ∀ (s : State) (b : Buf) (start count : Nat), s.opb.toNat = 65536 * count + start → start < 65536 →
    (start + count ≤ 16384 → ∃ t : State, exec (.lrc b) s = .next t ∧
      t = { s with resLo := t.resLo, resHi := t.resHi, errcode := .none, flags := {}, busy := false, done := true } ∧
      t.res = (xorBytes (s.readBytes b start count)).setWidth 64) ∧
    (16384 < start + count →
      exec (.lrc b) s = .next { s with errcode := .bounds, flags := {}, busy := false, done := true })

/-- VERIFY compares the XOR of the range with the expected byte in OPA: RES takes the XOR, FLAGS.OK the answer, and
nothing else changes, REPLY included; BOUNDS is checked first, then OPA above 0xFF is OUT_OF_RANGE
(42_checksum.md R174, R175). -/
def Obligations.VerifyComparesTheChecksum : Prop :=
  ∀ (s : State) (b : Buf) (start count : Nat), s.opb.toNat = 65536 * count + start → start < 65536 →
    (start + count ≤ 16384 → s.opa.toNat ≤ 0xFF → ∃ t : State, exec (.verify b) s = .next t ∧
      t = { s with
        resLo := t.resLo, resHi := t.resHi, errcode := .none, busy := false, done := true, flags := t.flags } ∧
      t.flags = { ok := decide ((xorBytes (s.readBytes b start count)).toNat = s.opa.toNat) } ∧
      t.res = (xorBytes (s.readBytes b start count)).setWidth 64) ∧
    (16384 < start + count →
      exec (.verify b) s = .next { s with errcode := .bounds, flags := {}, busy := false, done := true }) ∧
    (start + count ≤ 16384 → 0xFF < s.opa.toNat →
      exec (.verify b) s = .next { s with errcode := .outOfRange, flags := {}, busy := false, done := true })

/-- A frame of n bytes is valid exactly when the XOR over FBUF[1..n), its checksum byte included, is 0: LRC with
START = 1 and COUNT = n - 1 gives RES = 0 exactly when CHECK gives OK = 1 (42_checksum.md R177). -/
def Obligations.FrameIdentity : Prop :=
  ∀ (s : State) (n : Nat), s.flen.toNat = n → 5 ≤ n → n ≤ 16384 →
    ∃ t u : State, exec (.lrc .fbuf) { s with opb := BitVec.ofNat 16 (n - 1) ++ 1#16 } = .next t ∧
      exec .check s = .next u ∧ (t.res = 0 ↔ u.flags.ok = true)

/-! ## Packed decimal -/

/-- BCDENC of OPA up to 9999 puts its four decimal digits in the four nibbles of RES and changes nothing else; above
9999, OPA_HI counting too, it is OUT_OF_RANGE (41_bcd.md R153, R154). -/
def Obligations.BcdencPacksFourDigits : Prop :=
  ∀ (s : State) (n : Nat), s.opa.toNat = n →
    (n ≤ 9999 → ∃ t : State, exec .bcdenc s = .next t ∧
      t = { s with resLo := t.resLo, resHi := t.resHi, errcode := .none, flags := {}, busy := false, done := true } ∧
      t.res.toNat = 4096 * (n / 1000) + 256 * (n / 100 % 10) + 16 * (n / 10 % 10) + n % 10) ∧
    (9999 < n → exec .bcdenc s = .next { s with errcode := .outOfRange, flags := {}, busy := false, done := true })

/-- BCDDEC of OPA = 4096 d3 + 256 d2 + 16 d1 + d0 with nibbles at most 9 puts 1000 d3 + 100 d2 + 10 d1 + d0 in RES and
changes nothing else; a nibble above 9 or a bit of OPA[63:16] is BAD_BCD (41_bcd.md R150, R156, R157). -/
def Obligations.BcddecReadsFourDigits : Prop :=
  ∀ s : State,
    (∀ d3 d2 d1 d0 : Nat, s.opa.toNat = 4096 * d3 + 256 * d2 + 16 * d1 + d0 → d3 < 16 → d2 < 16 → d1 < 16 → d0 < 16 →
      (d3 ≤ 9 → d2 ≤ 9 → d1 ≤ 9 → d0 ≤ 9 → ∃ t : State, exec .bcddec s = .next t ∧
        t = { s with resLo := t.resLo, resHi := t.resHi, errcode := .none, flags := {}, busy := false, done := true } ∧
        t.res.toNat = 1000 * d3 + 100 * d2 + 10 * d1 + d0) ∧
      (9 < d3 ∨ 9 < d2 ∨ 9 < d1 ∨ 9 < d0 →
        exec .bcddec s = .next { s with errcode := .badBcd, flags := {}, busy := false, done := true })) ∧
    (65536 ≤ s.opa.toNat →
      exec .bcddec s = .next { s with errcode := .badBcd, flags := {}, busy := false, done := true })

/-- BCDST of OPA up to 9999 at an index up to 16382 stores the digit pairs, thousands and hundreds first, puts the
packed value in RES, and leaves every other byte and register alone; at 16383 it is BOUNDS, checked first, and above
9999 OUT_OF_RANGE (41_bcd.md R159, R160). -/
def Obligations.BcdstStoresTheLength : Prop :=
  ∀ (s : State) (a : BitVec 14) (n : Nat), s.opa.toNat = n →
    (a.toNat ≤ 16382 → n ≤ 9999 → ∃ t : State, exec (.bcdst a) s = .next t ∧
      t = { s with
        pbuf := t.pbuf, resLo := t.resLo, resHi := t.resHi, errcode := .none, flags := {}, busy := false, done := true } ∧
      (t.readByte .pbuf a.toNat).toNat = 16 * (n / 1000) + n / 100 % 10 ∧
      (t.readByte .pbuf (a.toNat + 1)).toNat = 16 * (n / 10 % 10) + n % 10 ∧
      t.res = (t.readByte .pbuf a.toNat ++ t.readByte .pbuf (a.toNat + 1)).setWidth 64 ∧
      (∀ k, k < a.toNat ∨ a.toNat + 2 ≤ k → t.readByte .pbuf k = s.readByte .pbuf k)) ∧
    (16382 < a.toNat →
      exec (.bcdst a) s = .next { s with errcode := .bounds, flags := {}, busy := false, done := true }) ∧
    (a.toNat ≤ 16382 → 9999 < n →
      exec (.bcdst a) s = .next { s with errcode := .outOfRange, flags := {}, busy := false, done := true })

/-- BCDLD at an index up to 16382 puts the value of the two bytes' four digits in RES and changes nothing else; a
nibble above 9 is BAD_BCD, and index 16383 is BOUNDS (41_bcd.md R150, R162, R163). -/
def Obligations.BcdldLoadsTheLength : Prop :=
  ∀ (s : State) (a : BitVec 14) (hi lo : Nat), (s.readByte .pbuf a.toNat).toNat = hi →
    (s.readByte .pbuf (a.toNat + 1)).toNat = lo →
    (a.toNat ≤ 16382 → hi / 16 ≤ 9 → hi % 16 ≤ 9 → lo / 16 ≤ 9 → lo % 16 ≤ 9 →
      ∃ t : State, exec (.bcdld a) s = .next t ∧
        t = { s with resLo := t.resLo, resHi := t.resHi, errcode := .none, flags := {}, busy := false, done := true } ∧
        t.res.toNat = 1000 * (hi / 16) + 100 * (hi % 16) + 10 * (lo / 16) + lo % 16) ∧
    (a.toNat ≤ 16382 → (9 < hi / 16 ∨ 9 < hi % 16 ∨ 9 < lo / 16 ∨ 9 < lo % 16) →
      exec (.bcdld a) s = .next { s with errcode := .badBcd, flags := {}, busy := false, done := true }) ∧
    (16382 < a.toNat →
      exec (.bcdld a) s = .next { s with errcode := .bounds, flags := {}, busy := false, done := true })

/-- The source's BCD round trip: FromBCD of ToBCD is the identity on 0 to 9999; BCDENC and then BCDDEC with RES copied
to OPA returns n; BCDST and then BCDLD at the same index returns n; above 9999 BCDENC and BCDST are OUT_OF_RANGE
(41_bcd.md R165). -/
def Obligations.BcdRoundTrip : Prop :=
  (∀ n ≤ 9999, bcdValue ((toBcd n).1 ++ (toBcd n).2) = (true, n)) ∧
  (∀ s : State, s.opa.toNat ≤ 9999 → ∃ t u : State, exec .bcdenc s = .next t ∧
    exec .bcddec { t with opaHi := t.resHi, opaLo := t.resLo } = .next u ∧ u.errcode = .none ∧ u.res = s.opa) ∧
  (∀ (s : State) (a : BitVec 14), s.opa.toNat ≤ 9999 → a.toNat + 2 ≤ 16384 → ∃ t u : State,
    exec (.bcdst a) s = .next t ∧ exec (.bcdld a) t = .next u ∧ u.errcode = .none ∧ u.res = s.opa) ∧
  (∀ (s : State) (a : BitVec 14), 9999 < s.opa.toNat → a.toNat + 2 ≤ 16384 →
    ∀ i ∈ [Instr.bcdenc, Instr.bcdst a], ∃ t : State, exec i s = .next t ∧ t.errcode = .outOfRange)

/-! ## Digit strings and amounts -/

/-- NUMENC of a value below 10^W in bounds stores its W decimal digits, most significant first and zero-padded, and
leaves every other byte and register alone, RES included; BOUNDS is checked first, then a value of more than W digits
is OUT_OF_RANGE (43_field_marshal.md R190, R191). -/
def Obligations.NumencWritesTheDigits : Prop :=
  ∀ (s : State) (src : NumSrc) (w : BitVec 5) (a : BitVec 14) (v : Nat), WellFormed (.numenc src w a) →
    v = (match src with | .opa => s.opa.toNat | .res => s.res.toNat) →
    (a.toNat + w.toNat ≤ 16384 → v < 10 ^ w.toNat → ∃ t : State, exec (.numenc src w a) s = .next t ∧
      t = { s with pbuf := t.pbuf, errcode := .none, flags := {}, busy := false, done := true } ∧
      (∀ k < w.toNat, (t.readByte .pbuf (a.toNat + k)).toNat = 0x30 + v / 10 ^ (w.toNat - 1 - k) % 10) ∧
      (∀ k, k < a.toNat ∨ a.toNat + w.toNat ≤ k → t.readByte .pbuf k = s.readByte .pbuf k)) ∧
    (16384 < a.toNat + w.toNat → exec (.numenc src w a) s =
      .next { s with errcode := .bounds, flags := {}, busy := false, done := true }) ∧
    (a.toNat + w.toNat ≤ 16384 → 10 ^ w.toNat ≤ v → exec (.numenc src w a) s =
      .next { s with errcode := .outOfRange, flags := {}, busy := false, done := true })

/-- NUMDEC of W digits in bounds puts the number they spell in RES and changes nothing else; BOUNDS is checked first,
then a byte that is no digit is BAD_DIGIT, then a number of 2^64 or more is OUT_OF_RANGE
(43_field_marshal.md R194, R195). -/
def Obligations.NumdecReadsTheDigits : Prop :=
  ∀ (s : State) (w : BitVec 5) (a : BitVec 14) (v : Nat), WellFormed (.numdec w a) →
    v = ∑ k ∈ Finset.range w.toNat,
      ((s.readByte .pbuf (a.toNat + k)).toNat - 0x30) * 10 ^ (w.toNat - 1 - k) →
    (a.toNat + w.toNat ≤ 16384 →
      ((∀ k < w.toNat, 0x30 ≤ (s.readByte .pbuf (a.toNat + k)).toNat ∧
          (s.readByte .pbuf (a.toNat + k)).toNat ≤ 0x39) →
        (v < 2 ^ 64 → ∃ t : State, exec (.numdec w a) s = .next t ∧
          t = { s with
            resLo := t.resLo, resHi := t.resHi, errcode := .none, flags := {}, busy := false, done := true } ∧
          t.res.toNat = v) ∧
        (2 ^ 64 ≤ v → exec (.numdec w a) s =
          .next { s with errcode := .outOfRange, flags := {}, busy := false, done := true })) ∧
      ((∃ k < w.toNat, (s.readByte .pbuf (a.toNat + k)).toNat < 0x30 ∨
          0x39 < (s.readByte .pbuf (a.toNat + k)).toNat) →
        exec (.numdec w a) s = .next { s with errcode := .badDigit, flags := {}, busy := false, done := true })) ∧
    (16384 < a.toNat + w.toNat → exec (.numdec w a) s =
      .next { s with errcode := .bounds, flags := {}, busy := false, done := true })

/-- A number written by NUMENC is read back by NUMDEC of the same width at the same index (43_field_marshal.md R190,
R194). -/
def Obligations.DigitStringRoundTrip : Prop :=
  ∀ (s : State) (src : NumSrc) (w : BitVec 5) (a : BitVec 14), WellFormed (.numenc src w a) →
    a.toNat + w.toNat ≤ 16384 → (s.numSource src).toNat < 10 ^ w.toNat →
    ∃ t u : State, exec (.numenc src w a) s = .next t ∧ exec (.numdec w a) t = .next u ∧
      u.errcode = .none ∧ u.res = s.numSource src

/-- MINOR converts M / 10^S to minor units. With S at most 2 the product is exact and 2^64 or more is OUT_OF_RANGE.
With S above 2 the result m of d = 10^(S-2) is the nearest integer to M / d with ties up (RMODE half), or the least
integer not below M / d (RMODE away), and no error is possible. Only RES changes (43_field_marshal.md R198, R199). -/
def Obligations.MinorRoundsTheAmount : Prop :=
  ∀ (s : State) (rm : RMode) (sc : BitVec 5) (m : Nat), WellFormed (.minor rm sc) → s.opa.toNat = m →
    (sc.toNat ≤ 2 → m * 10 ^ (2 - sc.toNat) < 2 ^ 64 → ∃ t : State, exec (.minor rm sc) s = .next t ∧
      t = { s with resLo := t.resLo, resHi := t.resHi, errcode := .none, flags := {}, busy := false, done := true } ∧
      t.res.toNat * 10 ^ sc.toNat = m * 100) ∧
    (sc.toNat ≤ 2 → 2 ^ 64 ≤ m * 10 ^ (2 - sc.toNat) → exec (.minor rm sc) s =
      .next { s with errcode := .outOfRange, flags := {}, busy := false, done := true }) ∧
    (2 < sc.toNat → ∃ t : State, exec (.minor rm sc) s = .next t ∧
      t = { s with resLo := t.resLo, resHi := t.resHi, errcode := .none, flags := {}, busy := false, done := true } ∧
      (rm = .half → 2 * (t.res.toNat * 10 ^ (sc.toNat - 2)) ≤ 2 * m + 10 ^ (sc.toNat - 2) ∧
        2 * m < 2 * (t.res.toNat * 10 ^ (sc.toNat - 2)) + 10 ^ (sc.toNat - 2)) ∧
      (rm = .away → m ≤ t.res.toNat * 10 ^ (sc.toNat - 2) ∧
        t.res.toNat * 10 ^ (sc.toNat - 2) < m + 10 ^ (sc.toNat - 2)))

/-! ## Text fields -/

/-- PAD in bounds with a source of L bytes, L at most W: the field of W bytes at ADDR is the source bytes as they were
before, on the left or the right, and pad bytes in the rest, also where source and destination overlap; every other
byte and register stays. BOUNDS is checked first, then L above W is TOO_LONG (43_field_marshal.md R204, R205;
20_memory.md R71). -/
def Obligations.PadFillsTheField : Prop :=
  ∀ (s : State) (j : Justify) (z : PadChar) (w : BitVec 8) (a : BitVec 14) (src len : Nat),
    WellFormed (.pad j z w a) → s.opb.toNat = 65536 * len + src → src < 65536 →
    (src + len ≤ 16384 → a.toNat + w.toNat ≤ 16384 → len ≤ w.toNat →
      ∃ t : State, exec (.pad j z w a) s = .next t ∧
        t = { s with pbuf := t.pbuf, errcode := .none, flags := {}, busy := false, done := true } ∧
        (j = .left → (∀ k < len, t.readByte .pbuf (a.toNat + k) = s.readByte .pbuf (src + k)) ∧
          ∀ k, len ≤ k → k < w.toNat → t.readByte .pbuf (a.toNat + k) = if z = .zero then 0x30 else 0x20) ∧
        (j = .right → (∀ k < len, t.readByte .pbuf (a.toNat + (w.toNat - len) + k) = s.readByte .pbuf (src + k)) ∧
          ∀ k, k < w.toNat - len → t.readByte .pbuf (a.toNat + k) = if z = .zero then 0x30 else 0x20) ∧
        (∀ k, k < a.toNat ∨ a.toNat + w.toNat ≤ k → t.readByte .pbuf k = s.readByte .pbuf k)) ∧
    (16384 < src + len ∨ 16384 < a.toNat + w.toNat → exec (.pad j z w a) s =
      .next { s with errcode := .bounds, flags := {}, busy := false, done := true }) ∧
    (src + len ≤ 16384 → a.toNat + w.toNat ≤ 16384 → w.toNat < len → exec (.pad j z w a) s =
      .next { s with errcode := .tooLong, flags := {}, busy := false, done := true })

/-- FLDLEN in bounds: RES is the index of the first NUL byte of the field and FLAGS is NUL, or RES is W and FLAGS is 0
when the field holds none; only RES changes. Out of bounds it is BOUNDS (43_field_marshal.md R210, R211). -/
def Obligations.FldlenFindsTheFirstNul : Prop :=
  ∀ (s : State) (w : BitVec 8) (a : BitVec 14), WellFormed (.fldlen w a) →
    (∀ k, a.toNat + w.toNat ≤ 16384 → k < w.toNat → s.readByte .pbuf (a.toNat + k) = 0x00 →
      (∀ l < k, s.readByte .pbuf (a.toNat + l) ≠ 0x00) → ∃ t : State, exec (.fldlen w a) s = .next t ∧
        t = { s with
          resLo := t.resLo, resHi := t.resHi, errcode := .none, flags := { nul := true }, busy := false, done := true } ∧
        t.res.toNat = k) ∧
    (a.toNat + w.toNat ≤ 16384 → (∀ k < w.toNat, s.readByte .pbuf (a.toNat + k) ≠ 0x00) →
      ∃ t : State, exec (.fldlen w a) s = .next t ∧
        t = { s with
          resLo := t.resLo, resHi := t.resHi, errcode := .none, flags := {}, busy := false, done := true } ∧
        t.res.toNat = w.toNat) ∧
    (16384 < a.toNat + w.toNat → exec (.fldlen w a) s =
      .next { s with errcode := .bounds, flags := {}, busy := false, done := true })

/-! ## Dates -/

/-- DateValid holds exactly when the last byte is 0 and the six fields are a date of the proleptic Gregorian calendar,
with the month lengths and the leap rule written out (43_field_marshal.md R216; the calendar is the spec's own
decision, log 11). -/
def Obligations.DateValidIsGregorian : Prop :=
  ∀ (d : BitVec 64) (y mo dy h mi se z : Nat),
    d.toNat = 2 ^ 48 * y + 2 ^ 40 * mo + 2 ^ 32 * dy + 2 ^ 24 * h + 2 ^ 16 * mi + 2 ^ 8 * se + z →
    mo < 256 → dy < 256 → h < 256 → mi < 256 → se < 256 → z < 256 →
    (dateValid d = true ↔
      z = 0 ∧ 1 ≤ y ∧ y ≤ 9999 ∧ 1 ≤ mo ∧ mo ≤ 12 ∧ 1 ≤ dy ∧ h ≤ 23 ∧ mi ≤ 59 ∧ se ≤ 59 ∧
      dy ≤ (if mo ∈ [4, 6, 9, 11] then 30
        else if mo = 2 then (if (y % 4 = 0 ∧ y % 100 ≠ 0) ∨ y % 400 = 0 then 29 else 28) else 31))

/-- DATEENC of a valid date in bounds stores 14 digit bytes that spell YEAR in 4 and the other fields in 2 digits
each, and leaves every other byte and register alone; BOUNDS is checked first, then an invalid date is BAD_DATE
(43_field_marshal.md R215, R218, R219). -/
def Obligations.DateencWritesTheDate : Prop :=
  ∀ (s : State) (a : BitVec 14),
    (a.toNat + 14 ≤ 16384 → dateValid s.opa = true → ∃ t : State, exec (.dateenc a) s = .next t ∧
      t = { s with pbuf := t.pbuf, errcode := .none, flags := {}, busy := false, done := true } ∧
      (∀ k < 14, 0x30 ≤ (t.readByte .pbuf (a.toNat + k)).toNat ∧ (t.readByte .pbuf (a.toNat + k)).toNat ≤ 0x39) ∧
      decValue (t.readBytes .pbuf a.toNat 4) = s.opa.toNat / 2 ^ 48 ∧
      (∀ f < 5, decValue (t.readBytes .pbuf (a.toNat + 4 + 2 * f) 2) = s.opa.toNat / 2 ^ (40 - 8 * f) % 256) ∧
      (∀ k, k < a.toNat ∨ a.toNat + 14 ≤ k → t.readByte .pbuf k = s.readByte .pbuf k)) ∧
    (16384 < a.toNat + 14 → exec (.dateenc a) s =
      .next { s with errcode := .bounds, flags := {}, busy := false, done := true }) ∧
    (a.toNat + 14 ≤ 16384 → dateValid s.opa = false → exec (.dateenc a) s =
      .next { s with errcode := .badDate, flags := {}, busy := false, done := true })

/-- DATEDEC in bounds of 14 digits that spell a valid date puts that date value in RES and changes nothing else;
errors are BOUNDS, then BAD_DIGIT, then BAD_DATE (43_field_marshal.md R215, R222, R223). -/
def Obligations.DatedecReadsTheDate : Prop :=
  ∀ (s : State) (a : BitVec 14),
    (a.toNat + 14 ≤ 16384 →
      (∀ k < 14, 0x30 ≤ (s.readByte .pbuf (a.toNat + k)).toNat ∧ (s.readByte .pbuf (a.toNat + k)).toNat ≤ 0x39) →
      ∃ d : BitVec 64,
        d.toNat = 2 ^ 48 * decValue (s.readBytes .pbuf a.toNat 4) +
          ∑ f ∈ Finset.range 5, 2 ^ (40 - 8 * f) * decValue (s.readBytes .pbuf (a.toNat + 4 + 2 * f) 2) ∧
        (dateValid d = true → ∃ t : State, exec (.datedec a) s = .next t ∧
          t = { s with
            resLo := t.resLo, resHi := t.resHi, errcode := .none, flags := {}, busy := false, done := true } ∧
          t.res = d) ∧
        (dateValid d = false → exec (.datedec a) s =
          .next { s with errcode := .badDate, flags := {}, busy := false, done := true })) ∧
    (a.toNat + 14 ≤ 16384 →
      (∃ k < 14, (s.readByte .pbuf (a.toNat + k)).toNat < 0x30 ∨ 0x39 < (s.readByte .pbuf (a.toNat + k)).toNat) →
      exec (.datedec a) s = .next { s with errcode := .badDigit, flags := {}, busy := false, done := true }) ∧
    (16384 < a.toNat + 14 → exec (.datedec a) s =
      .next { s with errcode := .bounds, flags := {}, busy := false, done := true })

/-- DATEDEC and then DATEENC at another index, OPA taking RES between them, reproduces the 14 bytes exactly for every
string that DATEDEC accepts (43_field_marshal.md R223). -/
def Obligations.DateRoundTrip : Prop :=
  ∀ (s t : State) (a b : BitVec 14), exec (.datedec a) s = .next t → t.errcode = .none → b.toNat + 14 ≤ 16384 →
    ∃ u : State, exec (.dateenc b) { t with opaHi := t.resHi, opaLo := t.resLo } = .next u ∧ u.errcode = .none ∧
      ∀ k < 14, u.readByte .pbuf (b.toNat + k) = s.readByte .pbuf (a.toNat + k)

/-! ## TLV entries -/

/-- TLVNEXT reads the entry at POS = OPB[15:0] of a field that ends at END = OPB[31:16]: RES takes the two tag bytes,
the value's index and its length, OPB[15:0] moves past the entry, and nothing else changes. At POS = END it only sets
FLAGS.END, with RES and OPB unchanged (43_field_marshal.md R228, R230, R232). -/
def Obligations.TlvnextReadsAnEntry : Prop :=
  ∀ (s : State) (pos fin : Nat), s.opb.toNat = 65536 * fin + pos → pos < 65536 → fin ≤ 16384 →
    (pos = fin → exec .tlvnext s =
      .next { s with errcode := .none, flags := { endOfField := true }, busy := false, done := true }) ∧
    (∀ len d2 d1 d0 : Nat, (s.readByte .pbuf (pos + 2)).toNat = 0x30 + d2 →
      (s.readByte .pbuf (pos + 3)).toNat = 0x30 + d1 → (s.readByte .pbuf (pos + 4)).toNat = 0x30 + d0 →
      d2 ≤ 9 → d1 ≤ 9 → d0 ≤ 9 → len = 100 * d2 + 10 * d1 + d0 → pos + 5 + len ≤ fin →
      ∃ t : State, exec .tlvnext s = .next t ∧
        t = { s with
          resLo := t.resLo, resHi := t.resHi, opb := t.opb, errcode := .none, flags := {}, busy := false, done := true } ∧
        t.resLo.toNat = 65536 * (pos + 5) + 256 * (s.readByte .pbuf (pos + 1)).toNat +
          (s.readByte .pbuf pos).toNat ∧
        t.resHi.toNat = len ∧ t.opb.toNat = 65536 * fin + (pos + 5 + len))

/-- TLVNEXT's errors in their order: END above 16384 or POS above END is BOUNDS; fewer than 5 bytes left is TRUNCATED;
a length byte that is no digit is BAD_DIGIT; a value that runs past END is TRUNCATED. OPB and the rest stay
(43_field_marshal.md R229, R230). -/
def Obligations.TlvnextErrorsInOrder : Prop :=
  ∀ (s : State) (pos fin : Nat), s.opb.toNat = 65536 * fin + pos → pos < 65536 →
    (16384 < fin ∨ fin < pos →
      exec .tlvnext s = .next { s with errcode := .bounds, flags := {}, busy := false, done := true }) ∧
    (fin ≤ 16384 → pos < fin → fin < pos + 5 →
      exec .tlvnext s = .next { s with errcode := .truncated, flags := {}, busy := false, done := true }) ∧
    (fin ≤ 16384 → pos + 5 ≤ fin → (∃ k, 2 ≤ k ∧ k ≤ 4 ∧
        ((s.readByte .pbuf (pos + k)).toNat < 0x30 ∨ 0x39 < (s.readByte .pbuf (pos + k)).toNat)) →
      exec .tlvnext s = .next { s with errcode := .badDigit, flags := {}, busy := false, done := true }) ∧
    (fin ≤ 16384 → pos + 5 ≤ fin → ∀ len d2 d1 d0 : Nat, (s.readByte .pbuf (pos + 2)).toNat = 0x30 + d2 →
      (s.readByte .pbuf (pos + 3)).toNat = 0x30 + d1 → (s.readByte .pbuf (pos + 4)).toNat = 0x30 + d0 →
      d2 ≤ 9 → d1 ≤ 9 → d0 ≤ 9 → len = 100 * d2 + 10 * d1 + d0 → fin < pos + 5 + len →
      exec .tlvnext s = .next { s with errcode := .truncated, flags := {}, busy := false, done := true })

/-! ## The whole machine -/

/-- Errors are precise: a completion with an error leaves the state as it was, apart from ERRCODE, FLAGS 0, BUSY 0,
DONE 1 and REPLY = NAK for DECODE and CHECK alone; an illegal word never writes REPLY, whatever its OP field. So no
buffer byte, PLEN, FLEN, OPB, RES or LENFIELD changes, and CMD still holds the word (60_exceptions.md R252, R253). -/
def Obligations.ErrorsArePrecise : Prop :=
  (∀ (i : Instr) (s t : State), exec i s = .next t → t.errcode ≠ .none →
    t = { s with
      errcode := t.errcode, flags := {}, busy := false, done := true,
      reply := if i = .decode ∨ i = .check then 0x15 else s.reply }) ∧
  (∀ s t : State, completeInFlight s = .next t → t.errcode ≠ .none →
    t = { s with
      errcode := t.errcode, flags := {}, busy := false, done := true,
      reply := if decode s.cmd = .ok .decode ∨ decode s.cmd = .ok .check then 0x15 else s.reply } ∧
    t.err = true)

/-- The table of the registers and ranges each command writes: every other register, and every buffer byte outside the
command's range, is as before (10_state.md R45; 92_eei_decisions.md D19). -/
def Obligations.CommandsWriteOnlyTheirTable : Prop :=
  ∀ (i : Instr) (s t : State), exec i s = .next t →
    t = { s with
      busy := false, done := true, errcode := t.errcode, flags := t.flags, plen := t.plen, flen := t.flen, resLo := t.resLo,
      resHi := t.resHi, opb := t.opb, lenfield := t.lenfield, reply := t.reply, pbuf := t.pbuf, fbuf := t.fbuf } ∧
    (i ≠ .decode → t.plen = s.plen) ∧
    (i ≠ .encode → t.flen = s.flen ∧ t.fbuf = s.fbuf) ∧
    (i ≠ .decode → i ≠ .check → t.lenfield = s.lenfield ∧ t.reply = s.reply) ∧
    (i ≠ .tlvnext → t.opb = s.opb) ∧ t.opb.extractLsb' 16 16 = s.opb.extractLsb' 16 16 ∧
    (writesRes i = false → t.res = s.res) ∧
    (i ≠ .decode → pbufRange i = Option.none → t.pbuf = s.pbuf) ∧
    (i = .encode → ∀ k, s.plen.toNat + 5 ≤ k → t.readByte .fbuf k = s.readByte .fbuf k) ∧
    (i = .decode → ∀ k, s.flen.toNat - 5 ≤ k → t.readByte .pbuf k = s.readByte .pbuf k) ∧
    (∀ a n, pbufRange i = some (a, n) → ∀ k, k < a ∨ a + n ≤ k → t.readByte .pbuf k = s.readByte .pbuf k)

/-- The invariant holds after reset (70_reset_and_hazards.md R281; 10_state.md R31, R32, R33). -/
def Obligations.InvariantAtReset : Prop := BlockInv State.reset

/-- Every step keeps the invariant: both buffers in canonical form inside their 16384 bytes, REPLY one of its three
values, FLAGS 0 after an error, BUSY and DONE never both 1, LENFIELD's VALUE the decimal reading of its RAW, LENMATCH
only with LENBCD, every register at its reset value while the reset input is asserted (10_state.md R23, R31, R32, R33,
R41, R42; 70_reset_and_hazards.md R280; the canonical form is the model's choice, log 2). -/
def Obligations.EveryStepKeepsTheInvariant : Prop :=
  ∀ s t : State, BlockInv s → step s = .next t → BlockInv t

/-- While the reset input is asserted, and until it is released, every step leaves every register at its reset value,
no command in flight and irq 0, whatever the turn: a write to CMD, CTRL or any other register is not performed, and a
read of a register returns its reset value. Buffer bytes stay free draws (70_reset_and_hazards.md R280, R281; the
premise is the invariant, and the turns are the model's choice of form, log 3 and log 6). -/
def Obligations.AssertedResetHoldsTheBlock : Prop :=
  ∀ s : State, BlockInv s → s.inReset = true →
    ((∀ rest, s.turns ≠ .resetInput false :: rest) → ∃ t : State, step s = .next t ∧
      t = { s with
        ie := false, busy := false, done := false, ovr := false, errcode := .none, cmd := 0, plen := 0, flen := 0,
        opaLo := 0, opaHi := 0, opb := 0, resLo := 0, resHi := 0, lenfield := 0, flags := {}, reply := 0,
        pbuf := t.pbuf, fbuf := t.fbuf, epoch := t.epoch, turns := t.turns, response := t.response } ∧
      t.inReset = true ∧ t.irq = false ∧
      ∀ (b : Buf) (k : Nat), t.readByte b k = Config.powerOnByte t.epoch (bufBase b + k)) ∧
    (∀ rest, ∀ p ∈ [((0x000 : BitVec 16), (0x46434D07 : Word)), (0x004, 0), (0x008, 0), (0x00C, 0), (0x010, 0),
        (0x014, 0), (0x018, 0), (0x01C, 0), (0x020, 0), (0x024, 0), (0x028, 0), (0x02C, 0), (0x030, 0), (0x034, 0),
        (0x038, 0)], s.turns = .host (.read .w32 p.1) :: rest →
      ∃ t : State, step s = .next t ∧ t.response = some ⟨false, p.2⟩)

end
end

