-- ==== Sys2Proof/Laws/State.lean ====
section
/-! SUPPORT. What each update of the state does to each field: one lemma per field per update, true by rfl. -/

namespace Sys2Proof.Machine

/-! ## State.setRes -/

@[simp] theorem State.setRes_ie (s : State) (v : BitVec 64) : (s.setRes v).ie = s.ie := rfl
@[simp] theorem State.setRes_busy (s : State) (v : BitVec 64) : (s.setRes v).busy = s.busy := rfl
@[simp] theorem State.setRes_done (s : State) (v : BitVec 64) : (s.setRes v).done = s.done := rfl
@[simp] theorem State.setRes_ovr (s : State) (v : BitVec 64) : (s.setRes v).ovr = s.ovr := rfl
@[simp] theorem State.setRes_errcode (s : State) (v : BitVec 64) : (s.setRes v).errcode = s.errcode := rfl
@[simp] theorem State.setRes_cmd (s : State) (v : BitVec 64) : (s.setRes v).cmd = s.cmd := rfl
@[simp] theorem State.setRes_plen (s : State) (v : BitVec 64) : (s.setRes v).plen = s.plen := rfl
@[simp] theorem State.setRes_flen (s : State) (v : BitVec 64) : (s.setRes v).flen = s.flen := rfl
@[simp] theorem State.setRes_opaLo (s : State) (v : BitVec 64) : (s.setRes v).opaLo = s.opaLo := rfl
@[simp] theorem State.setRes_opaHi (s : State) (v : BitVec 64) : (s.setRes v).opaHi = s.opaHi := rfl
@[simp] theorem State.setRes_opb (s : State) (v : BitVec 64) : (s.setRes v).opb = s.opb := rfl
@[simp] theorem State.setRes_resLo (s : State) (v : BitVec 64) : (s.setRes v).resLo = v.extractLsb' 0 32 := rfl
@[simp] theorem State.setRes_resHi (s : State) (v : BitVec 64) : (s.setRes v).resHi = v.extractLsb' 32 32 := rfl
@[simp] theorem State.setRes_lenfield (s : State) (v : BitVec 64) : (s.setRes v).lenfield = s.lenfield := rfl
@[simp] theorem State.setRes_flags (s : State) (v : BitVec 64) : (s.setRes v).flags = s.flags := rfl
@[simp] theorem State.setRes_reply (s : State) (v : BitVec 64) : (s.setRes v).reply = s.reply := rfl
@[simp] theorem State.setRes_pbuf (s : State) (v : BitVec 64) : (s.setRes v).pbuf = s.pbuf := rfl
@[simp] theorem State.setRes_fbuf (s : State) (v : BitVec 64) : (s.setRes v).fbuf = s.fbuf := rfl
@[simp] theorem State.setRes_inReset (s : State) (v : BitVec 64) : (s.setRes v).inReset = s.inReset := rfl
@[simp] theorem State.setRes_epoch (s : State) (v : BitVec 64) : (s.setRes v).epoch = s.epoch := rfl
@[simp] theorem State.setRes_turns (s : State) (v : BitVec 64) : (s.setRes v).turns = s.turns := rfl
@[simp] theorem State.setRes_response (s : State) (v : BitVec 64) : (s.setRes v).response = s.response := rfl

/-! ## State.setOpbLow -/

@[simp] theorem State.setOpbLow_ie (s : State) (v : BitVec 16) : (s.setOpbLow v).ie = s.ie := rfl
@[simp] theorem State.setOpbLow_busy (s : State) (v : BitVec 16) : (s.setOpbLow v).busy = s.busy := rfl
@[simp] theorem State.setOpbLow_done (s : State) (v : BitVec 16) : (s.setOpbLow v).done = s.done := rfl
@[simp] theorem State.setOpbLow_ovr (s : State) (v : BitVec 16) : (s.setOpbLow v).ovr = s.ovr := rfl
@[simp] theorem State.setOpbLow_errcode (s : State) (v : BitVec 16) : (s.setOpbLow v).errcode = s.errcode := rfl
@[simp] theorem State.setOpbLow_cmd (s : State) (v : BitVec 16) : (s.setOpbLow v).cmd = s.cmd := rfl
@[simp] theorem State.setOpbLow_plen (s : State) (v : BitVec 16) : (s.setOpbLow v).plen = s.plen := rfl
@[simp] theorem State.setOpbLow_flen (s : State) (v : BitVec 16) : (s.setOpbLow v).flen = s.flen := rfl
@[simp] theorem State.setOpbLow_opaLo (s : State) (v : BitVec 16) : (s.setOpbLow v).opaLo = s.opaLo := rfl
@[simp] theorem State.setOpbLow_opaHi (s : State) (v : BitVec 16) : (s.setOpbLow v).opaHi = s.opaHi := rfl
@[simp] theorem State.setOpbLow_opb (s : State) (v : BitVec 16) : (s.setOpbLow v).opb = s.opbHigh ++ v := rfl
@[simp] theorem State.setOpbLow_resLo (s : State) (v : BitVec 16) : (s.setOpbLow v).resLo = s.resLo := rfl
@[simp] theorem State.setOpbLow_resHi (s : State) (v : BitVec 16) : (s.setOpbLow v).resHi = s.resHi := rfl
@[simp] theorem State.setOpbLow_lenfield (s : State) (v : BitVec 16) : (s.setOpbLow v).lenfield = s.lenfield := rfl
@[simp] theorem State.setOpbLow_flags (s : State) (v : BitVec 16) : (s.setOpbLow v).flags = s.flags := rfl
@[simp] theorem State.setOpbLow_reply (s : State) (v : BitVec 16) : (s.setOpbLow v).reply = s.reply := rfl
@[simp] theorem State.setOpbLow_pbuf (s : State) (v : BitVec 16) : (s.setOpbLow v).pbuf = s.pbuf := rfl
@[simp] theorem State.setOpbLow_fbuf (s : State) (v : BitVec 16) : (s.setOpbLow v).fbuf = s.fbuf := rfl
@[simp] theorem State.setOpbLow_inReset (s : State) (v : BitVec 16) : (s.setOpbLow v).inReset = s.inReset := rfl
@[simp] theorem State.setOpbLow_epoch (s : State) (v : BitVec 16) : (s.setOpbLow v).epoch = s.epoch := rfl
@[simp] theorem State.setOpbLow_turns (s : State) (v : BitVec 16) : (s.setOpbLow v).turns = s.turns := rfl
@[simp] theorem State.setOpbLow_response (s : State) (v : BitVec 16) : (s.setOpbLow v).response = s.response := rfl

/-! ## State.writeBytes -/

@[simp] theorem State.writeBytes_ie (s : State) (b : Buf) (a : Nat) (bytes : List Byte) : (s.writeBytes b a bytes).ie = s.ie := by cases b <;> rfl
@[simp] theorem State.writeBytes_busy (s : State) (b : Buf) (a : Nat) (bytes : List Byte) : (s.writeBytes b a bytes).busy = s.busy := by cases b <;> rfl
@[simp] theorem State.writeBytes_done (s : State) (b : Buf) (a : Nat) (bytes : List Byte) : (s.writeBytes b a bytes).done = s.done := by cases b <;> rfl
@[simp] theorem State.writeBytes_ovr (s : State) (b : Buf) (a : Nat) (bytes : List Byte) : (s.writeBytes b a bytes).ovr = s.ovr := by cases b <;> rfl
@[simp] theorem State.writeBytes_errcode (s : State) (b : Buf) (a : Nat) (bytes : List Byte) : (s.writeBytes b a bytes).errcode = s.errcode := by cases b <;> rfl
@[simp] theorem State.writeBytes_cmd (s : State) (b : Buf) (a : Nat) (bytes : List Byte) : (s.writeBytes b a bytes).cmd = s.cmd := by cases b <;> rfl
@[simp] theorem State.writeBytes_plen (s : State) (b : Buf) (a : Nat) (bytes : List Byte) : (s.writeBytes b a bytes).plen = s.plen := by cases b <;> rfl
@[simp] theorem State.writeBytes_flen (s : State) (b : Buf) (a : Nat) (bytes : List Byte) : (s.writeBytes b a bytes).flen = s.flen := by cases b <;> rfl
@[simp] theorem State.writeBytes_opaLo (s : State) (b : Buf) (a : Nat) (bytes : List Byte) : (s.writeBytes b a bytes).opaLo = s.opaLo := by cases b <;> rfl
@[simp] theorem State.writeBytes_opaHi (s : State) (b : Buf) (a : Nat) (bytes : List Byte) : (s.writeBytes b a bytes).opaHi = s.opaHi := by cases b <;> rfl
@[simp] theorem State.writeBytes_opb (s : State) (b : Buf) (a : Nat) (bytes : List Byte) : (s.writeBytes b a bytes).opb = s.opb := by cases b <;> rfl
@[simp] theorem State.writeBytes_resLo (s : State) (b : Buf) (a : Nat) (bytes : List Byte) : (s.writeBytes b a bytes).resLo = s.resLo := by cases b <;> rfl
@[simp] theorem State.writeBytes_resHi (s : State) (b : Buf) (a : Nat) (bytes : List Byte) : (s.writeBytes b a bytes).resHi = s.resHi := by cases b <;> rfl
@[simp] theorem State.writeBytes_lenfield (s : State) (b : Buf) (a : Nat) (bytes : List Byte) : (s.writeBytes b a bytes).lenfield = s.lenfield := by cases b <;> rfl
@[simp] theorem State.writeBytes_flags (s : State) (b : Buf) (a : Nat) (bytes : List Byte) : (s.writeBytes b a bytes).flags = s.flags := by cases b <;> rfl
@[simp] theorem State.writeBytes_reply (s : State) (b : Buf) (a : Nat) (bytes : List Byte) : (s.writeBytes b a bytes).reply = s.reply := by cases b <;> rfl
@[simp] theorem State.writeBytes_inReset (s : State) (b : Buf) (a : Nat) (bytes : List Byte) : (s.writeBytes b a bytes).inReset = s.inReset := by cases b <;> rfl
@[simp] theorem State.writeBytes_epoch (s : State) (b : Buf) (a : Nat) (bytes : List Byte) : (s.writeBytes b a bytes).epoch = s.epoch := by cases b <;> rfl
@[simp] theorem State.writeBytes_turns (s : State) (b : Buf) (a : Nat) (bytes : List Byte) : (s.writeBytes b a bytes).turns = s.turns := by cases b <;> rfl
@[simp] theorem State.writeBytes_response (s : State) (b : Buf) (a : Nat) (bytes : List Byte) : (s.writeBytes b a bytes).response = s.response := by cases b <;> rfl

/-! ## State.succeed -/

@[simp] theorem State.succeed_ie (s : State) (f : Flags) : (s.succeed f).ie = s.ie := rfl
@[simp] theorem State.succeed_busy (s : State) (f : Flags) : (s.succeed f).busy = false := rfl
@[simp] theorem State.succeed_done (s : State) (f : Flags) : (s.succeed f).done = true := rfl
@[simp] theorem State.succeed_ovr (s : State) (f : Flags) : (s.succeed f).ovr = s.ovr := rfl
@[simp] theorem State.succeed_errcode (s : State) (f : Flags) : (s.succeed f).errcode = .none := rfl
@[simp] theorem State.succeed_cmd (s : State) (f : Flags) : (s.succeed f).cmd = s.cmd := rfl
@[simp] theorem State.succeed_plen (s : State) (f : Flags) : (s.succeed f).plen = s.plen := rfl
@[simp] theorem State.succeed_flen (s : State) (f : Flags) : (s.succeed f).flen = s.flen := rfl
@[simp] theorem State.succeed_opaLo (s : State) (f : Flags) : (s.succeed f).opaLo = s.opaLo := rfl
@[simp] theorem State.succeed_opaHi (s : State) (f : Flags) : (s.succeed f).opaHi = s.opaHi := rfl
@[simp] theorem State.succeed_opb (s : State) (f : Flags) : (s.succeed f).opb = s.opb := rfl
@[simp] theorem State.succeed_resLo (s : State) (f : Flags) : (s.succeed f).resLo = s.resLo := rfl
@[simp] theorem State.succeed_resHi (s : State) (f : Flags) : (s.succeed f).resHi = s.resHi := rfl
@[simp] theorem State.succeed_lenfield (s : State) (f : Flags) : (s.succeed f).lenfield = s.lenfield := rfl
@[simp] theorem State.succeed_flags (s : State) (f : Flags) : (s.succeed f).flags = f := rfl
@[simp] theorem State.succeed_reply (s : State) (f : Flags) : (s.succeed f).reply = s.reply := rfl
@[simp] theorem State.succeed_pbuf (s : State) (f : Flags) : (s.succeed f).pbuf = s.pbuf := rfl
@[simp] theorem State.succeed_fbuf (s : State) (f : Flags) : (s.succeed f).fbuf = s.fbuf := rfl
@[simp] theorem State.succeed_inReset (s : State) (f : Flags) : (s.succeed f).inReset = s.inReset := rfl
@[simp] theorem State.succeed_epoch (s : State) (f : Flags) : (s.succeed f).epoch = s.epoch := rfl
@[simp] theorem State.succeed_turns (s : State) (f : Flags) : (s.succeed f).turns = s.turns := rfl
@[simp] theorem State.succeed_response (s : State) (f : Flags) : (s.succeed f).response = s.response := rfl

/-! ## State.raise -/

@[simp] theorem State.raise_ie (s : State) (e : ErrCode) : (s.raise e).ie = s.ie := rfl
@[simp] theorem State.raise_busy (s : State) (e : ErrCode) : (s.raise e).busy = false := rfl
@[simp] theorem State.raise_done (s : State) (e : ErrCode) : (s.raise e).done = true := rfl
@[simp] theorem State.raise_ovr (s : State) (e : ErrCode) : (s.raise e).ovr = s.ovr := rfl
@[simp] theorem State.raise_errcode (s : State) (e : ErrCode) : (s.raise e).errcode = e := rfl
@[simp] theorem State.raise_cmd (s : State) (e : ErrCode) : (s.raise e).cmd = s.cmd := rfl
@[simp] theorem State.raise_plen (s : State) (e : ErrCode) : (s.raise e).plen = s.plen := rfl
@[simp] theorem State.raise_flen (s : State) (e : ErrCode) : (s.raise e).flen = s.flen := rfl
@[simp] theorem State.raise_opaLo (s : State) (e : ErrCode) : (s.raise e).opaLo = s.opaLo := rfl
@[simp] theorem State.raise_opaHi (s : State) (e : ErrCode) : (s.raise e).opaHi = s.opaHi := rfl
@[simp] theorem State.raise_opb (s : State) (e : ErrCode) : (s.raise e).opb = s.opb := rfl
@[simp] theorem State.raise_resLo (s : State) (e : ErrCode) : (s.raise e).resLo = s.resLo := rfl
@[simp] theorem State.raise_resHi (s : State) (e : ErrCode) : (s.raise e).resHi = s.resHi := rfl
@[simp] theorem State.raise_lenfield (s : State) (e : ErrCode) : (s.raise e).lenfield = s.lenfield := rfl
@[simp] theorem State.raise_flags (s : State) (e : ErrCode) : (s.raise e).flags = {} := rfl
@[simp] theorem State.raise_reply (s : State) (e : ErrCode) : (s.raise e).reply = s.reply := rfl
@[simp] theorem State.raise_pbuf (s : State) (e : ErrCode) : (s.raise e).pbuf = s.pbuf := rfl
@[simp] theorem State.raise_fbuf (s : State) (e : ErrCode) : (s.raise e).fbuf = s.fbuf := rfl
@[simp] theorem State.raise_inReset (s : State) (e : ErrCode) : (s.raise e).inReset = s.inReset := rfl
@[simp] theorem State.raise_epoch (s : State) (e : ErrCode) : (s.raise e).epoch = s.epoch := rfl
@[simp] theorem State.raise_turns (s : State) (e : ErrCode) : (s.raise e).turns = s.turns := rfl
@[simp] theorem State.raise_response (s : State) (e : ErrCode) : (s.raise e).response = s.response := rfl

/-! ## State.raiseNak -/

@[simp] theorem State.raiseNak_ie (s : State) (e : ErrCode) : (s.raiseNak e).ie = s.ie := rfl
@[simp] theorem State.raiseNak_busy (s : State) (e : ErrCode) : (s.raiseNak e).busy = false := rfl
@[simp] theorem State.raiseNak_done (s : State) (e : ErrCode) : (s.raiseNak e).done = true := rfl
@[simp] theorem State.raiseNak_ovr (s : State) (e : ErrCode) : (s.raiseNak e).ovr = s.ovr := rfl
@[simp] theorem State.raiseNak_errcode (s : State) (e : ErrCode) : (s.raiseNak e).errcode = e := rfl
@[simp] theorem State.raiseNak_cmd (s : State) (e : ErrCode) : (s.raiseNak e).cmd = s.cmd := rfl
@[simp] theorem State.raiseNak_plen (s : State) (e : ErrCode) : (s.raiseNak e).plen = s.plen := rfl
@[simp] theorem State.raiseNak_flen (s : State) (e : ErrCode) : (s.raiseNak e).flen = s.flen := rfl
@[simp] theorem State.raiseNak_opaLo (s : State) (e : ErrCode) : (s.raiseNak e).opaLo = s.opaLo := rfl
@[simp] theorem State.raiseNak_opaHi (s : State) (e : ErrCode) : (s.raiseNak e).opaHi = s.opaHi := rfl
@[simp] theorem State.raiseNak_opb (s : State) (e : ErrCode) : (s.raiseNak e).opb = s.opb := rfl
@[simp] theorem State.raiseNak_resLo (s : State) (e : ErrCode) : (s.raiseNak e).resLo = s.resLo := rfl
@[simp] theorem State.raiseNak_resHi (s : State) (e : ErrCode) : (s.raiseNak e).resHi = s.resHi := rfl
@[simp] theorem State.raiseNak_lenfield (s : State) (e : ErrCode) : (s.raiseNak e).lenfield = s.lenfield := rfl
@[simp] theorem State.raiseNak_flags (s : State) (e : ErrCode) : (s.raiseNak e).flags = {} := rfl
@[simp] theorem State.raiseNak_reply (s : State) (e : ErrCode) : (s.raiseNak e).reply = Config.nak := rfl
@[simp] theorem State.raiseNak_pbuf (s : State) (e : ErrCode) : (s.raiseNak e).pbuf = s.pbuf := rfl
@[simp] theorem State.raiseNak_fbuf (s : State) (e : ErrCode) : (s.raiseNak e).fbuf = s.fbuf := rfl
@[simp] theorem State.raiseNak_inReset (s : State) (e : ErrCode) : (s.raiseNak e).inReset = s.inReset := rfl
@[simp] theorem State.raiseNak_epoch (s : State) (e : ErrCode) : (s.raiseNak e).epoch = s.epoch := rfl
@[simp] theorem State.raiseNak_turns (s : State) (e : ErrCode) : (s.raiseNak e).turns = s.turns := rfl
@[simp] theorem State.raiseNak_response (s : State) (e : ErrCode) : (s.raiseNak e).response = s.response := rfl

/-! ## State.issue -/

@[simp] theorem State.issue_ie (s : State) (w : Word) : (s.issue w).ie = s.ie := rfl
@[simp] theorem State.issue_busy (s : State) (w : Word) : (s.issue w).busy = true := rfl
@[simp] theorem State.issue_done (s : State) (w : Word) : (s.issue w).done = false := rfl
@[simp] theorem State.issue_ovr (s : State) (w : Word) : (s.issue w).ovr = s.ovr := rfl
@[simp] theorem State.issue_errcode (s : State) (w : Word) : (s.issue w).errcode = s.errcode := rfl
@[simp] theorem State.issue_cmd (s : State) (w : Word) : (s.issue w).cmd = w := rfl
@[simp] theorem State.issue_plen (s : State) (w : Word) : (s.issue w).plen = s.plen := rfl
@[simp] theorem State.issue_flen (s : State) (w : Word) : (s.issue w).flen = s.flen := rfl
@[simp] theorem State.issue_opaLo (s : State) (w : Word) : (s.issue w).opaLo = s.opaLo := rfl
@[simp] theorem State.issue_opaHi (s : State) (w : Word) : (s.issue w).opaHi = s.opaHi := rfl
@[simp] theorem State.issue_opb (s : State) (w : Word) : (s.issue w).opb = s.opb := rfl
@[simp] theorem State.issue_resLo (s : State) (w : Word) : (s.issue w).resLo = s.resLo := rfl
@[simp] theorem State.issue_resHi (s : State) (w : Word) : (s.issue w).resHi = s.resHi := rfl
@[simp] theorem State.issue_lenfield (s : State) (w : Word) : (s.issue w).lenfield = s.lenfield := rfl
@[simp] theorem State.issue_flags (s : State) (w : Word) : (s.issue w).flags = s.flags := rfl
@[simp] theorem State.issue_reply (s : State) (w : Word) : (s.issue w).reply = s.reply := rfl
@[simp] theorem State.issue_pbuf (s : State) (w : Word) : (s.issue w).pbuf = s.pbuf := rfl
@[simp] theorem State.issue_fbuf (s : State) (w : Word) : (s.issue w).fbuf = s.fbuf := rfl
@[simp] theorem State.issue_inReset (s : State) (w : Word) : (s.issue w).inReset = s.inReset := rfl
@[simp] theorem State.issue_epoch (s : State) (w : Word) : (s.issue w).epoch = s.epoch := rfl
@[simp] theorem State.issue_turns (s : State) (w : Word) : (s.issue w).turns = s.turns := rfl
@[simp] theorem State.issue_response (s : State) (w : Word) : (s.issue w).response = s.response := rfl

/-! ## State.respond -/

@[simp] theorem State.respond_ie (s : State) (error : Bool) (data : Word) : (s.respond error data).ie = s.ie := rfl
@[simp] theorem State.respond_busy (s : State) (error : Bool) (data : Word) : (s.respond error data).busy = s.busy := rfl
@[simp] theorem State.respond_done (s : State) (error : Bool) (data : Word) : (s.respond error data).done = s.done := rfl
@[simp] theorem State.respond_ovr (s : State) (error : Bool) (data : Word) : (s.respond error data).ovr = s.ovr := rfl
@[simp] theorem State.respond_errcode (s : State) (error : Bool) (data : Word) : (s.respond error data).errcode = s.errcode := rfl
@[simp] theorem State.respond_cmd (s : State) (error : Bool) (data : Word) : (s.respond error data).cmd = s.cmd := rfl
@[simp] theorem State.respond_plen (s : State) (error : Bool) (data : Word) : (s.respond error data).plen = s.plen := rfl
@[simp] theorem State.respond_flen (s : State) (error : Bool) (data : Word) : (s.respond error data).flen = s.flen := rfl
@[simp] theorem State.respond_opaLo (s : State) (error : Bool) (data : Word) : (s.respond error data).opaLo = s.opaLo := rfl
@[simp] theorem State.respond_opaHi (s : State) (error : Bool) (data : Word) : (s.respond error data).opaHi = s.opaHi := rfl
@[simp] theorem State.respond_opb (s : State) (error : Bool) (data : Word) : (s.respond error data).opb = s.opb := rfl
@[simp] theorem State.respond_resLo (s : State) (error : Bool) (data : Word) : (s.respond error data).resLo = s.resLo := rfl
@[simp] theorem State.respond_resHi (s : State) (error : Bool) (data : Word) : (s.respond error data).resHi = s.resHi := rfl
@[simp] theorem State.respond_lenfield (s : State) (error : Bool) (data : Word) : (s.respond error data).lenfield = s.lenfield := rfl
@[simp] theorem State.respond_flags (s : State) (error : Bool) (data : Word) : (s.respond error data).flags = s.flags := rfl
@[simp] theorem State.respond_reply (s : State) (error : Bool) (data : Word) : (s.respond error data).reply = s.reply := rfl
@[simp] theorem State.respond_pbuf (s : State) (error : Bool) (data : Word) : (s.respond error data).pbuf = s.pbuf := rfl
@[simp] theorem State.respond_fbuf (s : State) (error : Bool) (data : Word) : (s.respond error data).fbuf = s.fbuf := rfl
@[simp] theorem State.respond_inReset (s : State) (error : Bool) (data : Word) : (s.respond error data).inReset = s.inReset := rfl
@[simp] theorem State.respond_epoch (s : State) (error : Bool) (data : Word) : (s.respond error data).epoch = s.epoch := rfl
@[simp] theorem State.respond_turns (s : State) (error : Bool) (data : Word) : (s.respond error data).turns = s.turns := rfl
@[simp] theorem State.respond_response (s : State) (error : Bool) (data : Word) : (s.respond error data).response = some ⟨error, data⟩ := rfl

/-! ## State.softReset -/

@[simp] theorem State.softReset_ie (s : State) : (s.softReset).ie = false := rfl
@[simp] theorem State.softReset_busy (s : State) : (s.softReset).busy = false := rfl
@[simp] theorem State.softReset_done (s : State) : (s.softReset).done = false := rfl
@[simp] theorem State.softReset_ovr (s : State) : (s.softReset).ovr = false := rfl
@[simp] theorem State.softReset_errcode (s : State) : (s.softReset).errcode = .none := rfl
@[simp] theorem State.softReset_cmd (s : State) : (s.softReset).cmd = 0 := rfl
@[simp] theorem State.softReset_plen (s : State) : (s.softReset).plen = 0 := rfl
@[simp] theorem State.softReset_flen (s : State) : (s.softReset).flen = 0 := rfl
@[simp] theorem State.softReset_opaLo (s : State) : (s.softReset).opaLo = 0 := rfl
@[simp] theorem State.softReset_opaHi (s : State) : (s.softReset).opaHi = 0 := rfl
@[simp] theorem State.softReset_opb (s : State) : (s.softReset).opb = 0 := rfl
@[simp] theorem State.softReset_resLo (s : State) : (s.softReset).resLo = 0 := rfl
@[simp] theorem State.softReset_resHi (s : State) : (s.softReset).resHi = 0 := rfl
@[simp] theorem State.softReset_lenfield (s : State) : (s.softReset).lenfield = 0 := rfl
@[simp] theorem State.softReset_flags (s : State) : (s.softReset).flags = {} := rfl
@[simp] theorem State.softReset_reply (s : State) : (s.softReset).reply = 0 := rfl
@[simp] theorem State.softReset_pbuf (s : State) : (s.softReset).pbuf = s.pbuf := rfl
@[simp] theorem State.softReset_fbuf (s : State) : (s.softReset).fbuf = s.fbuf := rfl
@[simp] theorem State.softReset_inReset (s : State) : (s.softReset).inReset = s.inReset := rfl
@[simp] theorem State.softReset_epoch (s : State) : (s.softReset).epoch = s.epoch := rfl
@[simp] theorem State.softReset_turns (s : State) : (s.softReset).turns = s.turns := rfl
@[simp] theorem State.softReset_response (s : State) : (s.softReset).response = s.response := rfl

/-! ## State.hardwareReset -/

@[simp] theorem State.hardwareReset_ie (s : State) (level : Bool) : (s.hardwareReset level).ie = false := rfl
@[simp] theorem State.hardwareReset_busy (s : State) (level : Bool) : (s.hardwareReset level).busy = false := rfl
@[simp] theorem State.hardwareReset_done (s : State) (level : Bool) : (s.hardwareReset level).done = false := rfl
@[simp] theorem State.hardwareReset_ovr (s : State) (level : Bool) : (s.hardwareReset level).ovr = false := rfl
@[simp] theorem State.hardwareReset_errcode (s : State) (level : Bool) : (s.hardwareReset level).errcode = .none := rfl
@[simp] theorem State.hardwareReset_cmd (s : State) (level : Bool) : (s.hardwareReset level).cmd = 0 := rfl
@[simp] theorem State.hardwareReset_plen (s : State) (level : Bool) : (s.hardwareReset level).plen = 0 := rfl
@[simp] theorem State.hardwareReset_flen (s : State) (level : Bool) : (s.hardwareReset level).flen = 0 := rfl
@[simp] theorem State.hardwareReset_opaLo (s : State) (level : Bool) : (s.hardwareReset level).opaLo = 0 := rfl
@[simp] theorem State.hardwareReset_opaHi (s : State) (level : Bool) : (s.hardwareReset level).opaHi = 0 := rfl
@[simp] theorem State.hardwareReset_opb (s : State) (level : Bool) : (s.hardwareReset level).opb = 0 := rfl
@[simp] theorem State.hardwareReset_resLo (s : State) (level : Bool) : (s.hardwareReset level).resLo = 0 := rfl
@[simp] theorem State.hardwareReset_resHi (s : State) (level : Bool) : (s.hardwareReset level).resHi = 0 := rfl
@[simp] theorem State.hardwareReset_lenfield (s : State) (level : Bool) : (s.hardwareReset level).lenfield = 0 := rfl
@[simp] theorem State.hardwareReset_flags (s : State) (level : Bool) : (s.hardwareReset level).flags = {} := rfl
@[simp] theorem State.hardwareReset_reply (s : State) (level : Bool) : (s.hardwareReset level).reply = 0 := rfl
@[simp] theorem State.hardwareReset_pbuf (s : State) (level : Bool) : (s.hardwareReset level).pbuf = [] := rfl
@[simp] theorem State.hardwareReset_fbuf (s : State) (level : Bool) : (s.hardwareReset level).fbuf = [] := rfl
@[simp] theorem State.hardwareReset_inReset (s : State) (level : Bool) : (s.hardwareReset level).inReset = level := rfl
@[simp] theorem State.hardwareReset_epoch (s : State) (level : Bool) : (s.hardwareReset level).epoch = s.epoch + 1 := rfl
@[simp] theorem State.hardwareReset_turns (s : State) (level : Bool) : (s.hardwareReset level).turns = s.turns := rfl
@[simp] theorem State.hardwareReset_response (s : State) (level : Bool) : (s.hardwareReset level).response = Option.none := rfl

/-! ## State.loseBuffers -/

@[simp] theorem State.loseBuffers_ie (s : State) : (s.loseBuffers).ie = s.ie := rfl
@[simp] theorem State.loseBuffers_busy (s : State) : (s.loseBuffers).busy = s.busy := rfl
@[simp] theorem State.loseBuffers_done (s : State) : (s.loseBuffers).done = s.done := rfl
@[simp] theorem State.loseBuffers_ovr (s : State) : (s.loseBuffers).ovr = s.ovr := rfl
@[simp] theorem State.loseBuffers_errcode (s : State) : (s.loseBuffers).errcode = s.errcode := rfl
@[simp] theorem State.loseBuffers_cmd (s : State) : (s.loseBuffers).cmd = s.cmd := rfl
@[simp] theorem State.loseBuffers_plen (s : State) : (s.loseBuffers).plen = s.plen := rfl
@[simp] theorem State.loseBuffers_flen (s : State) : (s.loseBuffers).flen = s.flen := rfl
@[simp] theorem State.loseBuffers_opaLo (s : State) : (s.loseBuffers).opaLo = s.opaLo := rfl
@[simp] theorem State.loseBuffers_opaHi (s : State) : (s.loseBuffers).opaHi = s.opaHi := rfl
@[simp] theorem State.loseBuffers_opb (s : State) : (s.loseBuffers).opb = s.opb := rfl
@[simp] theorem State.loseBuffers_resLo (s : State) : (s.loseBuffers).resLo = s.resLo := rfl
@[simp] theorem State.loseBuffers_resHi (s : State) : (s.loseBuffers).resHi = s.resHi := rfl
@[simp] theorem State.loseBuffers_lenfield (s : State) : (s.loseBuffers).lenfield = s.lenfield := rfl
@[simp] theorem State.loseBuffers_flags (s : State) : (s.loseBuffers).flags = s.flags := rfl
@[simp] theorem State.loseBuffers_reply (s : State) : (s.loseBuffers).reply = s.reply := rfl
@[simp] theorem State.loseBuffers_pbuf (s : State) : (s.loseBuffers).pbuf = [] := rfl
@[simp] theorem State.loseBuffers_fbuf (s : State) : (s.loseBuffers).fbuf = [] := rfl
@[simp] theorem State.loseBuffers_inReset (s : State) : (s.loseBuffers).inReset = s.inReset := rfl
@[simp] theorem State.loseBuffers_epoch (s : State) : (s.loseBuffers).epoch = s.epoch + 1 := rfl
@[simp] theorem State.loseBuffers_turns (s : State) : (s.loseBuffers).turns = s.turns := rfl
@[simp] theorem State.loseBuffers_response (s : State) : (s.loseBuffers).response = s.response := rfl

/-! ## The buffers a write changes -/

@[simp] theorem State.writeBytes_pbuf_pbuf (s : State) (a : Nat) (bytes : List Byte) :
    (s.writeBytes .pbuf a bytes).pbuf = writeCells s.pbuf a bytes := rfl
@[simp] theorem State.writeBytes_pbuf_fbuf (s : State) (a : Nat) (bytes : List Byte) :
    (s.writeBytes .pbuf a bytes).fbuf = s.fbuf := rfl
@[simp] theorem State.writeBytes_fbuf_pbuf (s : State) (a : Nat) (bytes : List Byte) :
    (s.writeBytes .fbuf a bytes).pbuf = s.pbuf := rfl
@[simp] theorem State.writeBytes_fbuf_fbuf (s : State) (a : Nat) (bytes : List Byte) :
    (s.writeBytes .fbuf a bytes).fbuf = writeCells s.fbuf a bytes := rfl

/-! ## The completion and the views -/

@[simp] theorem State.commit_ok (s t : State) (f : Flags) : s.commit (.ok (f, t)) = t.succeed f := rfl
@[simp] theorem State.commit_error (s : State) (e : ErrCode) : s.commit (.error e) = s.raise e := rfl
@[simp] theorem State.commitJudged_ok (s t : State) (f : Flags) : s.commitJudged (.ok (f, t)) = t.succeed f := rfl
@[simp] theorem State.commitJudged_error (s : State) (e : ErrCode) : s.commitJudged (.error e) = s.raiseNak e := rfl

/-- RES reads back the value written to it (10_state.md R30). -/
@[simp] theorem State.res_setRes (s : State) (v : BitVec 64) : (s.setRes v).res = v := by
  refine BitVec.eq_of_getLsbD_eq fun i hi => ?_
  unfold State.res
  rw [State.setRes_resHi, State.setRes_resLo, BitVec.getLsbD_append, BitVec.getLsbD_extractLsb',
    BitVec.getLsbD_extractLsb']
  split
  · simp_all
  · rw [show 32 + (i - 32) = i by omega]
    simp only [Bool.and_eq_right_iff_imp, decide_eq_true_eq]
    omega

/-- The high half of OPB stays when its low half is written (43_field_marshal.md R232). -/
@[simp] theorem State.opbHigh_setOpbLow (s : State) (v : BitVec 16) : (s.setOpbLow v).opbHigh = s.opbHigh := by
  refine BitVec.eq_of_getLsbD_eq fun i hi => ?_
  unfold State.opbHigh
  rw [State.setOpbLow_opb, BitVec.getLsbD_extractLsb', BitVec.getLsbD_append]
  simp [State.opbHigh]

/-- The low half of OPB reads back the value written to it (43_field_marshal.md R232). -/
@[simp] theorem State.opbLow_setOpbLow (s : State) (v : BitVec 16) : (s.setOpbLow v).opbLow = v := by
  refine BitVec.eq_of_getLsbD_eq fun i hi => ?_
  unfold State.opbLow
  rw [State.setOpbLow_opb, BitVec.getLsbD_extractLsb', BitVec.getLsbD_append]
  simp [hi]

end Sys2Proof.Machine
end

