-- ==== Sys2Proof/Laws/Memory.lean ====
section
/-! SUPPORT. The laws of the buffers: a read after a write, what a write leaves alone, and that every write keeps the
canonical form (spec/20_memory.md R62, R70; log 2). -/

namespace Sys2Proof.Machine

/-! ## Cells -/

theorem readCell_append (m n : Memory) (i : Nat) :
    readCell (m ++ n) i = (readCell m i).or (readCell n i) := by
  induction m with
  | nil => simp [readCell]
  | cons c rest ih =>
    obtain ⟨k, b⟩ := c
    by_cases h : k = i <;> simp [readCell, h, ih]

theorem readCell_filter (p : Nat → Bool) (m : Memory) (i : Nat) :
    readCell (m.filter (fun c => p c.1)) i = if p i then readCell m i else Option.none := by
  induction m with
  | nil => simp [readCell]
  | cons c rest ih =>
    obtain ⟨k, b⟩ := c
    by_cases hk : k = i
    · subst hk
      by_cases hp : p k <;> simp [readCell, hp, ih]
    · by_cases hp : p k <;> simp [readCell, hp, hk, ih]

theorem readCell_cellsFrom (a : Nat) (bytes : List Byte) (i : Nat) :
    readCell (cellsFrom a bytes) i = if a ≤ i then bytes[i - a]? else Option.none := by
  induction bytes generalizing a with
  | nil => simp [cellsFrom, readCell]
  | cons b rest ih =>
    simp only [cellsFrom, readCell, ih]
    rcases Nat.lt_trichotomy i a with h | h | h
    · rw [if_neg (by omega), if_neg (by omega), if_neg (by omega)]
    · subst h; simp
    · rw [if_neg (by omega), if_pos (by omega), if_pos (by omega), show i - a = (i - (a + 1)) + 1 by omega]
      simp

/-- What a write does to each index: the written byte inside the range, the old cell outside it. -/
theorem readCell_writeCells (m : Memory) (a : Nat) (bytes : List Byte) (i : Nat) :
    readCell (writeCells m a bytes) i =
      if a ≤ i ∧ i < a + bytes.length then bytes[i - a]? else readCell m i := by
  have hb := readCell_filter (fun k => decide (k < a)) m i
  have ha := readCell_filter (fun k => decide (a + bytes.length ≤ k)) m i
  rw [writeCells, readCell_append, readCell_append, hb, ha, readCell_cellsFrom]
  simp only [decide_eq_true_eq]
  rcases Nat.lt_or_ge i a with h1 | h1
  · have h2 : ¬ a ≤ i := by omega
    have h3 : ¬ a + bytes.length ≤ i := by omega
    simp [h1, h2, h3]
  · have h2 : ¬ i < a := by omega
    rcases Nat.lt_or_ge i (a + bytes.length) with h3 | h3
    · have h4 : ¬ a + bytes.length ≤ i := by omega
      simp [h1, h2, h3, h4]
    · have h4 : ¬ i < a + bytes.length := by omega
      simp [h1, h2, h3, h4, List.getElem?_eq_none (show bytes.length ≤ i - a by omega)]

/-! ## Canonical form -/

theorem cellsFrom_bound (a : Nat) (bytes : List Byte) (c : Host.Cell) (hc : c ∈ cellsFrom a bytes) :
    a ≤ c.1 ∧ c.1 < a + bytes.length := by
  induction bytes generalizing a with
  | nil => simp [cellsFrom] at hc
  | cons b rest ih =>
    simp only [cellsFrom, List.mem_cons] at hc
    rcases hc with rfl | hc
    · simp
    · have := ih (a + 1) hc
      simp only [List.length_cons]
      omega

theorem cellsFrom_rising (a : Nat) (bytes : List Byte) :
    (cellsFrom a bytes).Pairwise (fun c d => c.1 < d.1) := by
  induction bytes generalizing a with
  | nil => exact List.Pairwise.nil
  | cons b rest ih =>
    refine List.Pairwise.cons (fun c hc => ?_) (ih (a + 1))
    have := (cellsFrom_bound (a + 1) rest c hc).1
    simp only
    omega

/-- A write inside the buffer keeps the canonical form. -/
theorem writeCells_wf (m : Memory) (a : Nat) (bytes : List Byte) (hm : m.wf)
    (hb : a + bytes.length ≤ Config.bufSize) : (writeCells m a bytes).wf := by
  obtain ⟨hrise, hbound⟩ := hm
  refine ⟨?_, ?_⟩
  · rw [writeCells, List.pairwise_append, List.pairwise_append]
    refine ⟨hrise.filter _, ⟨cellsFrom_rising a bytes, hrise.filter _, ?_⟩, ?_⟩
    · intro c hc d hd
      have h1 := cellsFrom_bound a bytes c hc
      have h2 := (List.mem_filter.1 hd).2
      simp only [decide_eq_true_eq] at h2
      omega
    · intro c hc d hd
      have h1 := (List.mem_filter.1 hc).2
      simp only [decide_eq_true_eq] at h1
      rcases List.mem_append.1 hd with hd | hd
      · have h2 := cellsFrom_bound a bytes d hd
        omega
      · have h2 := (List.mem_filter.1 hd).2
        simp only [decide_eq_true_eq] at h2
        omega
  · intro c hc
    rw [writeCells, List.mem_append, List.mem_append] at hc
    rcases hc with hc | hc | hc
    · exact hbound c (List.mem_filter.1 hc).1
    · have := cellsFrom_bound a bytes c hc
      omega
    · exact hbound c (List.mem_filter.1 hc).1

/-- Buffers that became unspecified are in canonical form. -/
theorem loseBuffers_wf (s : State) : s.loseBuffers.pbuf.wf ∧ s.loseBuffers.fbuf.wf := by
  simp [Memory.wf]

/-- Buffers after a hardware reset are in canonical form. -/
theorem hardwareReset_wf (s : State) (level : Bool) :
    (s.hardwareReset level).pbuf.wf ∧ (s.hardwareReset level).fbuf.wf := by
  simp [Memory.wf]

/-- Canonical buffers with the same cells are the same data. -/
theorem memory_ext (m n : Memory) (hm : m.wf) (hn : n.wf) (h : ∀ i, readCell m i = readCell n i) : m = n := by
  have hnone : ∀ (l : Memory) (i : Nat), (∀ c ∈ l, i < c.1) → readCell l i = Option.none := by
    intro l
    induction l with
    | nil => intro i _; rfl
    | cons c rest ih =>
      intro i hl
      have h1 := hl c (List.mem_cons_self ..)
      rw [readCell, if_neg (by omega)]
      exact ih i fun d hd => hl d (List.mem_cons_of_mem _ hd)
  replace hm := hm.1
  replace hn := hn.1
  induction m generalizing n with
  | nil =>
    cases n with
    | nil => rfl
    | cons d restn => have := h d.1; simp [readCell] at this
  | cons c restm ih =>
    cases n with
    | nil => have := h c.1; simp [readCell] at this
    | cons d restn =>
      obtain ⟨kc, bc⟩ := c
      obtain ⟨kd, bd⟩ := d
      rw [List.pairwise_cons] at hm hn
      have hk : kc = kd := by
        rcases Nat.lt_trichotomy kc kd with hlt | heq | hgt
        · have := h kc
          rw [hnone ((kd, bd) :: restn) kc] at this
          · simp [readCell] at this
          · intro e he
            rcases List.mem_cons.1 he with rfl | he
            · exact hlt
            · have := hn.1 e he; simp only at this; omega
        · exact heq
        · have := h kd
          rw [hnone ((kc, bc) :: restm) kd] at this
          · simp [readCell] at this
          · intro e he
            rcases List.mem_cons.1 he with rfl | he
            · exact hgt
            · have := hm.1 e he; simp only at this; omega
      subst hk
      have hb := h kc
      simp only [readCell, if_true, Option.some.injEq] at hb
      subst hb
      congr 1
      refine ih restn (fun i => ?_) hm.2 hn.2
      have hi := h i
      simp only [readCell] at hi
      by_cases hik : kc = i
      · subst hik
        rw [hnone restm kc fun e he => hm.1 e he, hnone restn kc fun e he => hn.1 e he]
      · simpa [hik] using hi

/-! ## Bytes and strings of the state -/

/-- A read depends on the buffer's cells and the power-on number alone. -/
theorem readByte_congr (s t : State) (b : Buf) (hb : t.buffer b = s.buffer b) (hp : t.epoch = s.epoch) (i : Nat) :
    t.readByte b i = s.readByte b i := by
  simp only [State.readByte, hb, hp]

theorem readBytes_congr (s t : State) (b : Buf) (hb : t.buffer b = s.buffer b) (hp : t.epoch = s.epoch)
    (a n : Nat) : t.readBytes b a n = s.readBytes b a n := by
  simp only [State.readBytes, readByte_congr s t b hb hp]

/-- A byte after a write: the string's byte inside the range, the old byte outside it. -/
theorem readByte_writeBytes (s : State) (b : Buf) (a : Nat) (bytes : List Byte) (i : Nat) :
    (s.writeBytes b a bytes).readByte b i =
      if h : a ≤ i ∧ i < a + bytes.length then bytes[i - a]'(by omega) else s.readByte b i := by
  cases b <;>
  · simp only [State.readByte, State.buffer, State.writeBytes_pbuf_pbuf, State.writeBytes_fbuf_fbuf,
      State.writeBytes_epoch, readCell_writeCells]
    split
    · rename_i h
      rw [List.getElem?_eq_getElem (by omega)]
      rfl
    · rfl

/-- A write to one buffer leaves the other alone. -/
theorem readByte_writeBytes_other (s : State) (b c : Buf) (hne : b ≠ c) (a : Nat) (bytes : List Byte) (i : Nat) :
    (s.writeBytes b a bytes).readByte c i = s.readByte c i := by
  cases b <;> cases c <;> first | exact absurd rfl hne | rfl

@[simp] theorem readBytes_length (s : State) (b : Buf) (a n : Nat) : (s.readBytes b a n).length = n := by
  simp [State.readBytes]

@[simp] theorem readBytes_getElem (s : State) (b : Buf) (a n k : Nat) (h : k < (s.readBytes b a n).length) :
    (s.readBytes b a n)[k] = s.readByte b (a + k) := by
  simp [State.readBytes]

@[simp] theorem readBytes_zero (s : State) (b : Buf) (a : Nat) : s.readBytes b a 0 = [] := rfl

theorem readBytes_succ (s : State) (b : Buf) (a n : Nat) :
    s.readBytes b a (n + 1) = s.readBytes b a n ++ [s.readByte b (a + n)] := by
  simp [State.readBytes, List.range_succ]

/-- A string read back from where it was written. -/
theorem readBytes_writeBytes_same (s : State) (b : Buf) (a : Nat) (bytes : List Byte) :
    (s.writeBytes b a bytes).readBytes b a bytes.length = bytes := by
  refine List.ext_getElem (by simp) fun k h1 h2 => ?_
  rw [readBytes_getElem, readByte_writeBytes, dif_pos ⟨by omega, by omega⟩]
  congr 1
  omega

/-! ## Buffers through the other updates -/

@[simp] theorem readByte_succeed (s : State) (f : Flags) (b : Buf) (i : Nat) :
    (s.succeed f).readByte b i = s.readByte b i := by cases b <;> rfl
@[simp] theorem readBytes_succeed (s : State) (f : Flags) (b : Buf) (a n : Nat) :
    (s.succeed f).readBytes b a n = s.readBytes b a n := by cases b <;> rfl
@[simp] theorem readByte_setRes (s : State) (v : BitVec 64) (b : Buf) (i : Nat) :
    (s.setRes v).readByte b i = s.readByte b i := by cases b <;> rfl
@[simp] theorem readBytes_setRes (s : State) (v : BitVec 64) (b : Buf) (a n : Nat) :
    (s.setRes v).readBytes b a n = s.readBytes b a n := by cases b <;> rfl
@[simp] theorem readByte_raise (s : State) (e : ErrCode) (b : Buf) (i : Nat) :
    (s.raise e).readByte b i = s.readByte b i := by cases b <;> rfl
@[simp] theorem readByte_raiseNak (s : State) (e : ErrCode) (b : Buf) (i : Nat) :
    (s.raiseNak e).readByte b i = s.readByte b i := by cases b <;> rfl
@[simp] theorem res_succeed (s : State) (f : Flags) : (s.succeed f).res = s.res := rfl

end Sys2Proof.Machine
end

