-- ==== Sys2Proof/Laws/PerInstr.lean ====
section
/-! SUPPORT. Statements about every command, one lemma per constructor: the encoded word, laid out field by field as
R91 has it, is the number the assembler table of R100 gives (spec/30_encoding.md R91, R94, R100). -/

namespace Sys2Proof.Laws

/-- The number of a concatenation: the upper part above the width of the lower. -/
theorem toNat_append_add {m k : Nat} (x : BitVec m) (y : BitVec k) :
    (x ++ y).toNat = x.toNat * 2 ^ k + y.toNat := by
  rw [BitVec.toNat_append, Nat.shiftLeft_eq, Nat.mul_comm, ← Nat.two_pow_add_eq_or_of_lt y.isLt]

end Sys2Proof.Laws

namespace Sys2Proof.Laws.EncodedWord

/-- The word of a command as the assembler table gives it; the fields of a word do not overlap, so the table's OR is a
sum (30_encoding.md R100). -/
def Statement : Instr → Prop
  | .nop => (encode .nop).toNat = 0x00000000
  | .encode => (encode .encode).toNat = 0x08000000
  | .decode => (encode .decode).toNat = 0x10000000
  | .check => (encode .check).toNat = 0x18000000
  | .lrc b => (encode (.lrc b)).toNat = 0x20000000 + (bufBit b).toNat
  | .verify b => (encode (.verify b)).toNat = 0x28000000 + (bufBit b).toNat
  | .bcdenc => (encode .bcdenc).toNat = 0x30000000
  | .bcddec => (encode .bcddec).toNat = 0x38000000
  | .bcdst a => (encode (.bcdst a)).toNat = 0x40000000 + a.toNat
  | .bcdld a => (encode (.bcdld a)).toNat = 0x48000000 + a.toNat
  | .numenc src w a =>
    (encode (.numenc src w a)).toNat = 0x50000000 + (srcBit src).toNat * 2 ^ 19 + w.toNat * 2 ^ 14 + a.toNat
  | .numdec w a => (encode (.numdec w a)).toNat = 0x58000000 + w.toNat * 2 ^ 14 + a.toNat
  | .minor r s => (encode (.minor r s)).toNat = 0x60000000 + (rmodeBit r).toNat * 2 ^ 5 + s.toNat
  | .pad j z w a => (encode (.pad j z w a)).toNat =
    0x68000000 + (rjustBit j).toNat * 2 ^ 23 + (padzBit z).toNat * 2 ^ 22 + w.toNat * 2 ^ 14 + a.toNat
  | .fldlen w a => (encode (.fldlen w a)).toNat = 0x70000000 + w.toNat * 2 ^ 14 + a.toNat
  | .dateenc a => (encode (.dateenc a)).toNat = 0x78000000 + a.toNat
  | .datedec a => (encode (.datedec a)).toNat = 0x80000000 + a.toNat
  | .tlvnext => (encode .tlvnext).toNat = 0x88000000

theorem nop : Statement .nop := rfl

theorem encode : Statement .encode := rfl

theorem decode : Statement .decode := rfl

theorem check : Statement .check := rfl

theorem lrc (b : Buf) : Statement (.lrc b) := by cases b <;> rfl

theorem verify (b : Buf) : Statement (.verify b) := by cases b <;> rfl

theorem bcdenc : Statement .bcdenc := rfl

theorem bcddec : Statement .bcddec := rfl

theorem bcdst (a : BitVec 14) : Statement (.bcdst a) := by
  unfold Statement Sys2Proof.encode
  simp only
  rw [toNat_append_add, toNat_append_add]
  simp

theorem bcdld (a : BitVec 14) : Statement (.bcdld a) := by
  unfold Statement Sys2Proof.encode
  simp only
  rw [toNat_append_add, toNat_append_add]
  simp

theorem numenc (src : NumSrc) (w : BitVec 5) (a : BitVec 14) : Statement (.numenc src w a) := by
  unfold Statement Sys2Proof.encode
  simp only
  rw [toNat_append_add, toNat_append_add, toNat_append_add, toNat_append_add]
  simp
  ring

theorem numdec (w : BitVec 5) (a : BitVec 14) : Statement (.numdec w a) := by
  unfold Statement Sys2Proof.encode
  simp only
  rw [toNat_append_add, toNat_append_add, toNat_append_add]
  simp
  ring

theorem minor (r : RMode) (s : BitVec 5) : Statement (.minor r s) := by
  unfold Statement Sys2Proof.encode
  simp only
  rw [toNat_append_add, toNat_append_add, toNat_append_add]
  simp
  ring

theorem pad (j : Justify) (z : PadChar) (w : BitVec 8) (a : BitVec 14) : Statement (.pad j z w a) := by
  unfold Statement Sys2Proof.encode
  simp only
  rw [toNat_append_add, toNat_append_add, toNat_append_add, toNat_append_add, toNat_append_add]
  simp
  ring

theorem fldlen (w : BitVec 8) (a : BitVec 14) : Statement (.fldlen w a) := by
  unfold Statement Sys2Proof.encode
  simp only
  rw [toNat_append_add, toNat_append_add, toNat_append_add]
  simp
  ring

theorem dateenc (a : BitVec 14) : Statement (.dateenc a) := by
  unfold Statement Sys2Proof.encode
  simp only
  rw [toNat_append_add, toNat_append_add]
  simp

theorem datedec (a : BitVec 14) : Statement (.datedec a) := by
  unfold Statement Sys2Proof.encode
  simp only
  rw [toNat_append_add, toNat_append_add]
  simp

theorem tlvnext : Statement .tlvnext := rfl

end Sys2Proof.Laws.EncodedWord
end

