-- ==== Sys2Proof/Laws/Numbers.lean ====
section
/-! SUPPORT. The laws of the checksum, of digit strings and of packed decimal (spec/42_checksum.md R170;
spec/00_scope.md R12; spec/41_bcd.md R150, R151). -/

namespace Sys2Proof.Machine

open Sys2Proof.Laws

/-! ## Checksum -/

theorem xorBytes_foldl (acc : Byte) (bytes : List Byte) :
    bytes.foldl (fun a b => a ^^^ b) acc = acc ^^^ xorBytes bytes := by
  unfold xorBytes
  induction bytes generalizing acc with
  | nil => simp
  | cons b rest ih =>
    rw [List.foldl_cons, List.foldl_cons, ih (acc ^^^ b), ih (0 ^^^ b), BitVec.xor_assoc]
    simp

theorem xorBytes_cons (b : Byte) (rest : List Byte) : xorBytes (b :: rest) = b ^^^ xorBytes rest := by
  rw [xorBytes, List.foldl_cons, xorBytes_foldl]
  simp

theorem xorBytes_append (p q : List Byte) : xorBytes (p ++ q) = xorBytes p ^^^ xorBytes q := by
  induction p with
  | nil => simp [xorBytes]
  | cons b rest ih => rw [List.cons_append, xorBytes_cons, xorBytes_cons, ih, BitVec.xor_assoc]

/-! ## Digit strings -/

theorem digitChar_toNat (d : Nat) (h : d < 10) : (digitChar d).toNat = 0x30 + d := by
  have h30 : Config.charZero.toNat = 48 := rfl
  rw [digitChar, h30, BitVec.toNat_ofNat]
  omega

theorem isDigit_iff (b : Byte) : isDigit b = true ↔ 0x30 ≤ b.toNat ∧ b.toNat ≤ 0x39 := by
  simp [isDigit, Config.charZero, Config.charNine, BitVec.le_def]

theorem digitVal_eq (b : Byte) : digitVal b = b.toNat - 0x30 := rfl

theorem isDigit_digitChar (d : Nat) (h : d < 10) : isDigit (digitChar d) = true := by
  rw [isDigit_iff, digitChar_toNat d h]
  omega

theorem digitVal_digitChar (d : Nat) (h : d < 10) : digitVal (digitChar d) = d := by
  rw [digitVal_eq, digitChar_toNat d h]
  omega

theorem digitChar_digitVal (b : Byte) (h : isDigit b = true) : digitChar (digitVal b) = b := by
  rw [isDigit_iff] at h
  apply BitVec.eq_of_toNat_eq
  rw [digitChar_toNat _ (by rw [digitVal_eq]; omega), digitVal_eq]
  omega

@[simp] theorem digits_length (v w : Nat) : (digits v w).length = w := by simp [digits]

theorem digits_getElem (v w k : Nat) (h : k < (digits v w).length) :
    (digits v w)[k] = digitChar (v / 10 ^ (w - 1 - k) % 10) := by
  simp [digits]

/-- A digit string of width w + 1 is its leading digit and the string of width w. -/
theorem digits_succ (v w : Nat) : digits v (w + 1) = digitChar (v / 10 ^ w % 10) :: digits v w := by
  refine List.ext_getElem (by simp) fun k h1 h2 => ?_
  rw [digits_getElem]
  cases k with
  | zero => simp
  | succ k =>
    rw [List.getElem_cons_succ, digits_getElem]
    congr 4
    omega

theorem digits_all (v w : Nat) : (digits v w).all isDigit = true := by
  rw [List.all_eq_true]
  intro b hb
  simp only [digits, List.mem_map] at hb
  obtain ⟨k, _, rfl⟩ := hb
  exact isDigit_digitChar _ (Nat.mod_lt _ (by omega))

/-- The digit string of a value spells the value's last digits. -/
theorem decValue_digits (v w : Nat) : decValue (digits v w) = v % 10 ^ w := by
  induction w with
  | zero => simp [digits, decValue, Nat.mod_one]
  | succ w ih =>
    rw [digits_succ, decValue, ih, digits_length, digitVal_digitChar _ (Nat.mod_lt _ (by omega)), Nat.pow_succ,
      Nat.mod_mul, Nat.mul_comm]
    omega

/-- A string of digits spells a number below ten to its length. -/
theorem decValue_lt (bytes : List Byte) (h : bytes.all isDigit = true) : decValue bytes < 10 ^ bytes.length := by
  induction bytes with
  | nil => simp [decValue]
  | cons b rest ih =>
    rw [List.all_cons, Bool.and_eq_true] at h
    have hb := (isDigit_iff b).1 h.1
    have hr := ih h.2
    rw [decValue, List.length_cons, Nat.pow_succ, digitVal_eq]
    have : (b.toNat - 0x30) * 10 ^ rest.length ≤ 9 * 10 ^ rest.length := Nat.mul_le_mul_right _ (by omega)
    omega

/-- A string of digits is the digit string of the number it spells. -/
theorem digits_decValue (bytes : List Byte) (h : bytes.all isDigit = true) :
    digits (decValue bytes) bytes.length = bytes := by
  have key : ∀ (v m : Nat) (w : Nat), digits (m * 10 ^ w + v) w = digits v w := by
    intro v m w
    refine List.ext_getElem (by simp) fun k h1 h2 => ?_
    rw [digits_length] at h1
    rw [digits_getElem, digits_getElem]
    congr 1
    have hw : m * 10 ^ w = 10 ^ (w - 1 - k) * (10 * (m * 10 ^ k)) := by
      rw [show 10 ^ w = 10 ^ (w - 1 - k) * 10 * 10 ^ k by
        rw [← Nat.pow_succ, ← Nat.pow_add]; congr 1; omega]
      ring
    rw [hw, Nat.mul_add_div (by positivity)]
    omega
  induction bytes with
  | nil => simp [digits]
  | cons b rest ih =>
    rw [List.all_cons, Bool.and_eq_true] at h
    have hr := decValue_lt rest h.2
    have hb := (isDigit_iff b).1 h.1
    rw [List.length_cons, digits_succ, decValue, key, ih h.2]
    congr 1
    rw [Nat.mul_comm, Nat.mul_add_div (by positivity), Nat.div_eq_of_lt hr, Nat.add_zero,
      Nat.mod_eq_of_lt (by rw [digitVal_eq]; omega)]
    exact digitChar_digitVal b h.1

/-! ## Packed decimal -/

theorem bcdNibble_eq (r : BitVec 16) (k : Nat) : bcdNibble r k = r.toNat / 2 ^ (4 * k) % 16 := by
  simp [bcdNibble, BitVec.extractLsb'_toNat, Nat.shiftRight_eq_div_pow]

theorem bcdByte_toNat (high low : Nat) (hh : high < 16) (hl : low < 16) :
    (bcdByte high low).toNat = 16 * high + low := by
  rw [bcdByte, toNat_append_add]
  simp only [BitVec.toNat_ofNat]
  omega

theorem toBcd_fst (n : Nat) (h : n ≤ 9999) : (toBcd n).1.toNat = 16 * (n / 1000) + n / 100 % 10 :=
  bcdByte_toNat _ _ (by omega) (by omega)

theorem toBcd_snd (n : Nat) : (toBcd n).2.toNat = 16 * (n / 10 % 10) + n % 10 :=
  bcdByte_toNat _ _ (by omega) (by omega)

end Sys2Proof.Machine
end

