-- ==== Sys2Proof/Laws/Completion.lean ====
section
/-! SUPPORT. What each shared operation of a completion and of a host access can do, said once (spec/10_state.md R41,
R46; spec/60_exceptions.md R252). -/

namespace Sys2Proof.Machine

/-! ## Completions -/

/-- A completion either raises the error of its result or succeeds with its flags and results. -/
theorem commit_cases (s : State) (r : Result) :
    (∃ e, r = .error e ∧ s.commit r = s.raise e) ∨ (∃ f t, r = .ok (f, t) ∧ s.commit r = t.succeed f) := by
  cases r with
  | error e => exact .inl ⟨e, rfl, rfl⟩
  | ok p => exact .inr ⟨p.1, p.2, rfl, rfl⟩

/-- The same for DECODE and CHECK, whose errors also answer NAK. -/
theorem commitJudged_cases (s : State) (r : Result) :
    (∃ e, r = .error e ∧ s.commitJudged r = s.raiseNak e) ∨
      (∃ f t, r = .ok (f, t) ∧ s.commitJudged r = t.succeed f) := by
  cases r with
  | error e => exact .inl ⟨e, rfl, rfl⟩
  | ok p => exact .inr ⟨p.1, p.2, rfl, rfl⟩

/-- The check of FLEN answers BOUNDS, RUNT_FRAME or the frame's result. -/
theorem checkFlen_cases (n : Nat) (r : Flags × State) :
    (16384 < n ∧ checkFlen n r = .error .bounds) ∨ (n < 5 ∧ checkFlen n r = .error .runtFrame) ∨
      (5 ≤ n ∧ n ≤ 16384 ∧ checkFlen n r = .ok r) := by
  unfold checkFlen Config.bufSize Config.frameOverhead
  split
  · exact .inl ⟨by omega, rfl⟩
  · split
    · exact .inr (.inl ⟨by omega, rfl⟩)
    · exact .inr (.inr ⟨by omega, by omega, rfl⟩)

/-- FromBCD answers the value in RES or BAD_BCD. -/
theorem fromBcd_cases (s : State) (r : BitVec 16) :
    ((bcdValue r).1 = true ∧ fromBcd s r = .ok ({}, s.setRes (BitVec.ofNat 64 (bcdValue r).2))) ∨
      ((bcdValue r).1 = false ∧ fromBcd s r = .error .badBcd) := by
  unfold fromBcd
  cases h : (bcdValue r).1
  · exact .inr ⟨rfl, by simp⟩
  · exact .inl ⟨rfl, by simp⟩

/-- A write while busy only sets OVR; while idle it is made. -/
theorem unlessBusy_cases (s t : State) :
    (s.busy = true ∧ unlessBusy s t = { s with ovr := true }) ∨ (s.busy = false ∧ unlessBusy s t = t) := by
  unfold unlessBusy
  cases h : s.busy
  · exact .inr ⟨rfl, by simp⟩
  · exact .inl ⟨rfl, by simp⟩

/-! ## Host accesses -/

/-- A read changes the bus response alone. -/
theorem hostAccess_read (w : Width) (o : BitVec 16) (s : State) :
    hostAccess (.read w o) s =
      if legalAccess w o.toNat then s.respond false (readWindow w o.toNat s) else s.respond true 0 := rfl

/-- A write is made when it is legal, and changes the bus response alone when it is a bus error. -/
theorem hostAccess_write (w : Width) (o : BitVec 16) (d : Word) (s : State) :
    hostAccess (.write w o d) s =
      if legalAccess w o.toNat then (writeWindow w o.toNat d s).respond false 0 else s.respond true 0 := rfl

/-- A host turn is the access, or, while the reset input is asserted, the held access. -/
theorem hostTurn_cases (a : Access) (s : State) :
    (s.inReset = false ∧ hostTurn a s = hostAccess a s) ∨ (s.inReset = true ∧ hostTurn a s = heldAccess a s) := by
  unfold hostTurn
  cases h : s.inReset
  · exact .inl ⟨rfl, by simp⟩
  · exact .inr ⟨rfl, by simp⟩

/-- While the reset input is asserted an access changes the response alone, or loses the buffers as well. -/
theorem heldAccess_cases (a : Access) (s : State) :
    ∃ (error : Bool) (data : Word), heldAccess a s = s.respond error data ∨
      heldAccess a s = s.loseBuffers.respond error data := by
  cases a with
  | read w o =>
    rw [heldAccess, hostAccess_read]
    split
    · exact ⟨_, _, .inl rfl⟩
    · exact ⟨_, _, .inl rfl⟩
  | write w o d =>
    rw [heldAccess, heldWrite]
    split
    · split
      · exact ⟨_, _, .inl rfl⟩
      · exact ⟨_, _, .inr rfl⟩
      · exact ⟨_, _, .inl rfl⟩
    · exact ⟨_, _, .inl rfl⟩

/-- A level of the reset input resets the block, or is no event. -/
theorem takeResetLevel_cases (s : State) (level : Bool) :
    ((level = true ∨ s.inReset = true) ∧ s.takeResetLevel level = s.hardwareReset level) ∨
      (level = false ∧ s.inReset = false ∧ s.takeResetLevel level = s) := by
  unfold State.takeResetLevel
  cases level <;> cases h : s.inReset <;> simp

/-! ## The step -/

/-- The engine's turn: nothing while idle, the decoded command, or the error of an illegal word. -/
theorem engineTurn_cases (s t : State) (h : engineTurn s = .next t) :
    (s.busy = false ∧ t = s) ∨
      (s.busy = true ∧ ∃ i, decode s.cmd = .ok i ∧ exec i s = .next t) ∨
      (s.busy = true ∧ ∃ e, decode s.cmd = .error e ∧ t = s.raise .illegalCmd) := by
  unfold engineTurn completeInFlight at h
  cases hb : s.busy
  · rw [hb] at h
    exact .inl ⟨rfl, (Host.Outcome.next.inj h).symm⟩
  · rw [hb, if_pos rfl] at h
    cases hd : decode s.cmd with
    | ok i => rw [hd] at h; exact .inr (.inl ⟨rfl, i, rfl, h⟩)
    | error e => rw [hd] at h; exact .inr (.inr ⟨rfl, e, rfl, (Host.Outcome.next.inj h).symm⟩)

/-- Everything a step can do: the engine's turn, scheduled or for want of a schedule, a host turn, or a level of the
reset input. -/
theorem step_cases (s t : State) (h : step s = .next t) :
    (s.turns = [] ∧ engineTurn s = .next t) ∨ ∃ rest,
      (s.turns = .engine :: rest ∧ engineTurn { s with turns := rest } = .next t) ∨
      (∃ a, s.turns = .host a :: rest ∧ t = hostTurn a { s with turns := rest }) ∨
      (∃ level, s.turns = .resetInput level :: rest ∧ t = ({ s with turns := rest } : State).takeResetLevel level) := by
  unfold step at h
  split at h
  · exact .inl ⟨‹_›, h⟩
  · exact .inr ⟨_, .inl ⟨‹_›, h⟩⟩
  · exact .inr ⟨_, .inr (.inl ⟨_, ‹_›, (Host.Outcome.next.inj h).symm⟩)⟩
  · exact .inr ⟨_, .inr (.inr ⟨_, ‹_›, (Host.Outcome.next.inj h).symm⟩)⟩

/-! ## The regions of the window -/

theorem regionOf_registers (o : Nat) (h : o < 0x4000) : regionOf o = .registers o := by
  simp only [regionOf, Config.pbufBase]
  rw [if_pos (by omega)]

theorem regionOf_buffer (b : Buf) (i : Nat) (h : i < 16384) : regionOf (bufBase b + i) = .buffer b i := by
  cases b
  · have e : bufBase .pbuf + i = 16384 + i := rfl
    have h1 : ¬ 16384 + i < 16384 := by omega
    have h2 : 16384 + i < 32768 := by omega
    simp [e, regionOf, h2]
  · have e : bufBase .fbuf + i = 32768 + i := rfl
    have h1 : ¬ 32768 + i < 16384 := by omega
    have h3 : 32768 + i < 49152 := by omega
    simp [e, regionOf, h1, h3]

theorem regionOf_reserved (o : Nat) (h : 0xC000 ≤ o) : regionOf o = .reserved := by
  simp only [regionOf, Config.pbufBase, Config.fbufBase, Config.reservedBase]
  rw [if_neg (by omega), if_neg (by omega), if_neg (by omega)]

/-- No register stands at or above offset 0x03C (10_state.md R34). -/
theorem regAt_reserved (o : Nat) (h : 0x03C ≤ o) : regAt o = Option.none := by
  unfold regAt
  split <;> first | omega | rfl

/-- The register map in both directions (10_state.md R20). -/
theorem regAt_regOffset (r : Reg) : regAt (regOffset r).toNat = some r := by cases r <;> rfl

/-- A 32-bit write to a register's offset is the register's write (20_memory.md R64). -/
theorem hostAccess_write_reg (r : Reg) (d : Word) (s : State) :
    hostAccess (.write .w32 (regOffset r) d) s = (writeReg r d s).respond false 0 := by cases r <;> rfl

/-- A 32-bit read of a register's offset returns the register (20_memory.md R64). -/
theorem hostAccess_read_reg (r : Reg) (s : State) :
    hostAccess (.read .w32 (regOffset r)) s = s.respond false (readReg r s) := by cases r <;> rfl

end Sys2Proof.Machine
end

