-- ==== Sys2Proof/Tests/Slice0.lean ====
section
/-! SUPPORT. The model's own tests, and for every statement that has hypotheses a state and operands that meet them.
Expected values are the words and vectors of spec/95_test_vectors.md and spec/30_encoding.md, named in each test. -/

namespace Sys2Proof.Tests

open Sys2Proof.Machine

set_option maxRecDepth 20000

/-! ## Helpers -/

/-- The state of an outcome that is a next state. -/
def settled : Host.Outcome State Fault Refusal → Option State
  | .next t => some t
  | .fault _ => Option.none
  | .refused _ => Option.none

/-- What a test looks at after a completion: the error code's number and two more values. -/
def sees (i : Instr) (s : State) {α : Type} (look : State → α) : Option α := (settled (exec i s)).map look

/-- Reset with bytes in PBUF at an index. -/
def inPbuf (a : Nat) (bytes : List Byte) : State := State.reset.writeBytes .pbuf a bytes

/-- Reset with bytes in FBUF from index 0 and their number in FLEN. -/
def inFbuf (bytes : List Byte) : State :=
  { State.reset.writeBytes .fbuf 0 bytes with flen := BitVec.ofNat 16 bytes.length }

/-- Reset with a value in OPA. -/
def withOpa (v : BitVec 64) : State := { State.reset with opaLo := v.extractLsb' 0 32, opaHi := v.extractLsb' 32 32 }

/-- The frame of the payload "P1" (40_frame_codec.md R125). -/
def frameP1 : List Byte := [0x02, 0x00, 0x02, 0x50, 0x31, 0x03, 0x60]

/-- A state with a command in flight and a schedule. -/
def inFlight (w : Word) (turns : List Turn) : State := { State.reset with cmd := w, busy := true, turns := turns }

/-- A state whose reset input is asserted, with a schedule. -/
def held (turns : List Turn) : State := { State.reset with inReset := true, turns := turns }

/-! ## WellFormed refuses -/

theorem test_smoke_numenc_width_zero : ¬ WellFormed (.numenc .opa 0 5) := by decide
theorem test_smoke_numenc_width_21 : ¬ WellFormed (.numenc .opa 21 5) := by decide
theorem test_smoke_numdec_width_zero : ¬ WellFormed (.numdec 0 5) := by decide
theorem test_smoke_numdec_width_21 : ¬ WellFormed (.numdec 21 5) := by decide
theorem test_smoke_minor_scale_20 : ¬ WellFormed (.minor .half 20) := by decide
theorem test_smoke_pad_width_zero : ¬ WellFormed (.pad .left .space 0 0x10) := by decide
theorem test_smoke_fldlen_width_zero : ¬ WellFormed (.fldlen 0 0x40) := by decide
theorem test_smoke_limits_are_legal : WellFormed (.numenc .opa 20 0) ∧ WellFormed (.numdec 1 0) ∧
    WellFormed (.minor .half 19) ∧ WellFormed (.pad .left .space 255 0) ∧ WellFormed (.fldlen 1 0) := by decide

/-! ## Decoding, by words written from the formats of R91: OP, reserved, fields -/

theorem test_word_nop : decode 0b00000_000000000000000000000000000 = .ok .nop := by decide
theorem test_word_encode : decode 0b00001_000000000000000000000000000 = .ok .encode := by decide
theorem test_word_decode : decode 0b00010_000000000000000000000000000 = .ok .decode := by decide
theorem test_word_check : decode 0b00011_000000000000000000000000000 = .ok .check := by decide
theorem test_word_lrc : decode 0b00100_00000000000000000000000000_0 = .ok (.lrc .pbuf) := by decide
theorem test_word_verify : decode 0b00101_00000000000000000000000000_1 = .ok (.verify .fbuf) := by decide
theorem test_word_bcdenc : decode 0b00110_000000000000000000000000000 = .ok .bcdenc := by decide
theorem test_word_bcddec : decode 0b00111_000000000000000000000000000 = .ok .bcddec := by decide
theorem test_word_bcdst : decode 0b01000_0000000000000_11111111111110 = .ok (.bcdst 16382) := by decide
theorem test_word_bcdld : decode 0b01001_0000000000000_00000000100000 = .ok (.bcdld 0x20) := by decide
theorem test_word_numenc : decode 0b01010_0000000_1_00100_00001000000000 = .ok (.numenc .res 4 0x200) := by decide
theorem test_word_numdec : decode 0b01011_00000000_10100_00000100000000 = .ok (.numdec 20 0x100) := by decide
theorem test_word_minor : decode 0b01100_000000000000000000000_1_00011 = .ok (.minor .away 3) := by decide
theorem test_word_pad : decode 0b01101_000_1_0_00000101_00000000000001 = .ok (.pad .right .space 5 1) := by decide
theorem test_word_pad_zero : decode 0b01101_000_0_1_11111111_11111111111111 = .ok (.pad .left .zero 255 16383) := by
  decide
theorem test_word_fldlen : decode 0b01110_00000_00000010_11111111111111 = .ok (.fldlen 2 16383) := by decide
theorem test_word_dateenc : decode 0b01111_0000000000000_11111111110011 = .ok (.dateenc 16371) := by decide
theorem test_word_datedec : decode 0b10000_0000000000000_00000001010000 = .ok (.datedec 0x50) := by decide
theorem test_word_tlvnext : decode 0b10001_000000000000000000000000000 = .ok .tlvnext := by decide

/-- V60, V61: reserved opcodes. -/
theorem test_reserved_opcodes : [0x90000000, 0xF8000000].map decode = List.replicate 2 (.error .reservedOpcode) := by
  decide

/-- V62, V63, V64, V65, V69: reserved bits. -/
theorem test_reserved_bits : [0x08000001, 0x10000001, 0x20000002, 0x40004000, 0x580B0005].map decode =
    List.replicate 5 (.error .reservedBits) := by decide

/-- V72, V74, V76, V77: reserved bits. -/
theorem test_more_reserved_bits : [0x60000040, 0x69000000, 0x70400040, 0x88000001].map decode =
    List.replicate 4 (.error .reservedBits) := by decide

/-- V66, V67, V70, V73, V75: field values. -/
theorem test_field_values : [0x50000005, 0x50054005, 0x60000014, 0x68000010, 0x70000040].map decode =
    List.replicate 5 (.error .fieldValue) := by decide

/-- V68, V71: legal words at a limit. -/
theorem test_legal_limits :
    decode 0x50050000 = .ok (.numenc .opa 20 0) ∧ decode 0x60000013 = .ok (.minor .half 19) := by decide

theorem test_encode_words : encode (.numenc .res 12 5) = 0x500B0005 ∧ encode (.pad .right .zero 20 0x11) = 0x68C50011 ∧
    encode (.minor .away 2) = 0x60000022 ∧ encode (.bcdst 16382) = 0x40003FFE := by decide

/-- The table word of a row goes through the same decoder (R94). -/
theorem test_table_word : decodeTableWord 32 0x88000000 = some .tlvnext ∧ decodeTableWord 32 0x88000001 = none := by
  decide

/-- A word placed by withFetchWord is the one the next step runs. -/
theorem test_fetch_word : (settled (step (State.reset.withFetchWord 32 0))).map (fun t => (t.statusWord, t.cmd)) =
    some (0x2, 0) := by decide

/-- R101: PADZL and AMTDEC by their words. -/
theorem test_pseudo_words : (pseudoPadzl 20 0x11).map encode = [0x68C50011] ∧
    (pseudoEcrref 0x11).map encode = [0x68050011] ∧ (pseudoAmtdec 5).map encode = [0x58030005] := by decide

/-! ## Host accesses -/

/-- V2, V3: bus errors. -/
theorem test_bus_error : hostAccess (.read .w8 0x000) State.reset = { State.reset with response := some ⟨true, 0⟩ } ∧
    (hostAccess (.read .w32 0x4002) State.reset).response = some ⟨true, 0⟩ := by decide

/-- V4, V5: little-endian buffers. -/
theorem test_little_endian :
    (hostAccess (.read .w16 0x4002) (inPbuf 2 [0x34, 0x12])).response = some ⟨false, 0x1234⟩ ∧
    (hostAccess (.write .w32 0x8000 0x03000002) State.reset).readBytes .fbuf 0 4 = [0x02, 0x00, 0x00, 0x03] := by
  decide

/-- V8 to V11: read-only, reserved and control bits. -/
theorem test_register_writes :
    (hostAccess (.write .w32 0x034 0xFF) State.reset).statusWord = 0 ∧
    (hostAccess (.write .w32 0x004 0xFFFFFFFD) State.reset).ctrlWord = 1 ∧
    (hostAccess (.write .w32 0x004 0x3) { State.reset with ie := true }).ctrlWord = 0 ∧
    (hostAccess (.write .w32 0x014 0x12345) State.reset).plen = 0x2345 := by decide

/-- V15, V17: a refused write sets OVR and changes nothing. -/
theorem test_refused_write :
    (hostAccess (.write .w32 0x014 7) (inFlight 0x08000000 [])).statusWord = 0x9 ∧
    (hostAccess (.write .w32 0x014 7) (inFlight 0x08000000 [])).plen = 0 ∧
    (hostAccess (.write .w32 0x010 0x08000000) (inFlight 0 [])).cmd = 0 := by decide

/-- V19: ERR stays while ERRCODE is not 0. -/
theorem test_status_clear : (hostAccess (.write .w32 0x008 2)
    { State.reset with errcode := .payloadTooLarge, done := true }).statusWord = 0x4 := by decide

/-- V12: the completion of a NOP with IE = 1 raises irq. -/
theorem test_step_nop : (settled (step { inFlight 0 [.engine] with ie := true })).map
    (fun t => (t.statusWord, t.irq, t.turns)) = some (0x2, true, []) := by decide

/-- R280: a write to CMD or PLEN while the reset input is asserted has no effect, and asserting it drops the command in
flight. -/
theorem test_step_held :
    (settled (step (held [.host (.write .w32 0x010 0x08000000)]))).map (fun t => (t.cmd, t.statusWord, t.inReset)) =
      some (0, 0, true) ∧
    (settled (step (held [.host (.write .w32 0x014 7)]))).map (fun t => t.plen) = some 0 ∧
    (settled (step (held [.host (.read .w32 0x004)]))).map (fun t => t.response) = some (some ⟨false, 0⟩) ∧
    (settled (step (inFlight 0x08000000 [.resetInput true]))).map (fun t => (t.cmd, t.statusWord, t.inReset)) =
      some (0, 0, true) ∧
    (settled (step (held [.resetInput false]))).map (fun t => (t.statusWord, t.inReset)) = some (0, false) := by decide

/-- V63: an illegal word's completion does not write REPLY. -/
theorem test_step_illegal : (settled (step { inFlight 0x10000001 [.engine] with reply := 0x06 })).map
    (fun t => (t.errcode, t.statusWord, t.reply)) = some (.illegalCmd, 0x6, 0x06) := by decide

/-! ## Commands, by the vectors of section 2 -/

/-- V39b. -/
theorem test_nop : sees .nop { State.reset with errcode := .badDate, reply := 0x06 }
    (fun t => (t.errcode, t.statusWord, t.reply)) = some (.none, 0x2, 0x06) := by decide

/-- V28. -/
theorem test_encode : sees .encode { inPbuf 0 [0x50, 0x31] with plen := 2 }
    (fun t => (t.readBytes .fbuf 0 7, t.flen, t.res, t.flags.word)) = some (frameP1, 7, 0x60, 0x1) := by decide

/-- V26. -/
theorem test_encode_too_large : sees .encode { State.reset with plen := 10000, flen := 0x77 }
    (fun t => (t.errcode, t.flen, t.fbuf)) = some (.payloadTooLarge, 0x77, []) := by decide

/-- V29. -/
theorem test_decode : sees .decode ((inFbuf frameP1).writeBytes .pbuf 0 [0xAA, 0xAA, 0xAA, 0xAA])
    (fun t => (t.readBytes .pbuf 0 4, t.plen, t.lenfield, t.res, t.flags.word, t.reply)) =
    some ([0x50, 0x31, 0xAA, 0xAA], 2, 0x00020002, 0x6060, 0x1F, 0x06) := by decide

/-- V33. -/
theorem test_decode_length_not_bcd : sees .decode (inFbuf [0x02, 0x0A, 0x02, 0x50, 0x31, 0x03, 0x6A])
    (fun t => (t.plen, t.lenfield, t.res, t.flags.word, t.reply)) = some (2, 0x00000A02, 0x6A6A, 0x19, 0x06) := by
  decide

/-- V38. -/
theorem test_check : sees .check { inFbuf [0x02, 0x00, 0x01, 0x03, 0x03] with plen := 0x99 }
    (fun t => (t.lenfield, t.res, t.flags.word, t.reply, t.plen)) = some (0x00010001, 0x0302, 0x1A, 0x15, 0x99) := by
  decide

/-- V39a. -/
theorem test_check_runt : sees .check { State.reset with flen := 3 } (fun t => (t.errcode, t.reply)) =
    some (.runtFrame, 0x15) := by decide

/-- V82. -/
theorem test_lrc : sees (.lrc .fbuf) { inFbuf frameP1 with opb := 0x00060001 } (fun t => (t.errcode, t.res)) =
    some (.none, 0x00) := by decide

/-- V85. -/
theorem test_lrc_no_wrap : sees (.lrc .pbuf) { State.reset with opb := 0xFFFFFFFF } (fun t => t.errcode) =
    some .bounds := by decide

/-- V87. -/
theorem test_verify : sees (.verify .fbuf) { inFbuf frameP1 with opb := 0x00050001, opaLo := 0x61, reply := 0x06 }
    (fun t => (t.flags.word, t.res, t.errcode, t.reply)) = some (0x0, 0x60, .none, 0x06) := by decide

/-- V91. -/
theorem test_verify_order : sees (.verify .fbuf) { State.reset with opb := 0x00014000, opaLo := 0x100 }
    (fun t => t.errcode) = some .bounds := by decide

/-- V44. -/
theorem test_bcdenc : sees .bcdenc (withOpa 1234) (fun t => t.res) = some 0x1234 := by decide

/-- V47. -/
theorem test_bcdenc_high : sees .bcdenc { State.reset with opaHi := 1 } (fun t => t.errcode) = some .outOfRange := by
  decide

/-- V48. -/
theorem test_bcddec : sees .bcddec (withOpa 0x0017) (fun t => t.res) = some 17 := by decide

/-- V51. -/
theorem test_bcddec_high : sees .bcddec (withOpa 0x00010000) (fun t => t.errcode) = some .badBcd := by decide

/-- V52. -/
theorem test_bcdst : sees (.bcdst 0x100) (withOpa 37) (fun t => (t.readBytes .pbuf 0x100 2, t.res)) =
    some ([0x00, 0x37], 0x0037) := by decide

/-- V54. -/
theorem test_bcdst_order : sees (.bcdst 16383) (withOpa 10000) (fun t => t.errcode) = some .bounds := by decide

/-- V55. -/
theorem test_bcdld : sees (.bcdld 0x20) (inPbuf 0x20 [0x12, 0x34]) (fun t => t.res) = some 1234 := by decide

/-- V56. -/
theorem test_bcdld_bad : sees (.bcdld 0x20) (inPbuf 0x20 [0x12, 0x3A]) (fun t => (t.errcode, t.res)) =
    some (.badBcd, 0) := by decide

/-- V100. -/
theorem test_numenc : sees (.numenc .opa 12 5) (withOpa 1234) (fun t => t.readBytes .pbuf 5 12) =
    some [0x30, 0x30, 0x30, 0x30, 0x30, 0x30, 0x30, 0x30, 0x31, 0x32, 0x33, 0x34] := by decide

/-- V105. -/
theorem test_numenc_res : sees (.numenc .res 4 0x200) { withOpa 7 with resLo := 42 }
    (fun t => (t.readBytes .pbuf 0x200 4, t.res)) = some ([0x30, 0x30, 0x34, 0x32], 42) := by decide

/-- V113. -/
theorem test_numdec : sees (.numdec 20 0x100) (inPbuf 0x100 [0x31, 0x38, 0x34, 0x34, 0x36, 0x37, 0x34, 0x34, 0x30, 0x37,
    0x33, 0x37, 0x30, 0x39, 0x35, 0x35, 0x31, 0x36, 0x31, 0x35]) (fun t => t.res) = some 0xFFFFFFFFFFFFFFFF := by
  decide

/-- V112. -/
theorem test_numdec_sign : sees (.numdec 4 0x200) (inPbuf 0x200 [0x2D, 0x31, 0x32, 0x33]) (fun t => t.errcode) =
    some .badDigit := by decide

/-- V123, V126, V128, V130. -/
theorem test_minor : sees (.minor .half 3) (withOpa 12345) (fun t => t.res) = some 1235 ∧
    sees (.minor .half 3) (withOpa 4) (fun t => t.res) = some 0 ∧
    sees (.minor .away 19) (withOpa 1) (fun t => t.res) = some 1 ∧
    sees (.minor .away 19) (withOpa 18446744073709551615) (fun t => t.res) = some 185 := by decide

/-- V131, V132. -/
theorem test_minor_range : sees (.minor .away 0) (withOpa 18446744073709551615) (fun t => t.errcode) =
      some .outOfRange ∧
    sees (.minor .half 0) (withOpa 184467440737095516) (fun t => t.res) = some 18446744073709551600 := by decide

/-- V145. -/
theorem test_pad : sees (.pad .right .zero 5 1) { inPbuf 0 [0x41, 0x42, 0x43] with opb := 0x00030000 }
    (fun t => t.readBytes .pbuf 0 6) = some [0x41, 0x30, 0x30, 0x41, 0x42, 0x43] := by decide

/-- V144. -/
theorem test_pad_too_long : sees (.pad .left .space 3 0x10) { State.reset with opb := 0x00043000 }
    (fun t => (t.errcode, t.pbuf)) = some (.tooLong, []) := by decide

/-- V150. -/
theorem test_fldlen : sees (.fldlen 4 0x40) (inPbuf 0x40 [0x41, 0x00, 0x42, 0x00])
    (fun t => (t.res, t.flags.word)) = some (1, 0x20) := by decide

/-- V148. -/
theorem test_fldlen_full : sees (.fldlen 4 0x40) (inPbuf 0x40 [0x41, 0x42, 0x43, 0x44])
    (fun t => (t.res, t.flags.word)) = some (4, 0x0) := by decide

/-- V160. -/
theorem test_dateenc : sees (.dateenc 0x50) (withOpa 0x07E8030F0A141E00) (fun t => t.readBytes .pbuf 0x50 14) =
    some [0x32, 0x30, 0x32, 0x34, 0x30, 0x33, 0x31, 0x35, 0x31, 0x30, 0x32, 0x30, 0x33, 0x30] := by decide

/-- V163, V164, V167, V170. -/
theorem test_dateenc_calendar : [0x076C021D00000000, 0x07D0021D00000000, 0x07E80D0100000000, 0x07E8030F0A141E01].map
    (fun d => sees (.dateenc 0x50) (withOpa d) (fun t => t.errcode)) =
    [some .badDate, some .none, some .badDate, some .badDate] := by decide

/-- V172. -/
theorem test_datedec : sees (.datedec 0x50) (inPbuf 0x50 [0x32, 0x30, 0x32, 0x34, 0x31, 0x32, 0x33, 0x31, 0x32, 0x33,
    0x35, 0x39, 0x35, 0x39]) (fun t => t.res) = some 0x07E80C1F173B3B00 := by decide

/-- V175. -/
theorem test_datedec_year_zero : sees (.datedec 0x50) (inPbuf 0x50 [0x30, 0x30, 0x30, 0x30, 0x30, 0x31, 0x30, 0x31, 0x30,
    0x30, 0x30, 0x30, 0x30, 0x30]) (fun t => t.errcode) = some .badDate := by decide

/-- V180. -/
theorem test_tlvnext : sees .tlvnext
    { inPbuf 0x40 [0x41, 0x31, 0x30, 0x30, 0x33, 0x58, 0x59, 0x5A, 0x42] with opb := 0x004D0040 }
    (fun t => (t.resLo, t.resHi, t.opb)) = some (0x00453141, 3, 0x004D0048) := by decide

/-- V186, V188, V189. -/
theorem test_tlvnext_ends : sees .tlvnext
      { inPbuf 0x60 [0x41, 0x31, 0x30, 0x30, 0x39, 0x58, 0x59, 0x5A] with opb := 0x00680060 }
      (fun t => (t.errcode, t.opb)) = some (.truncated, 0x00680060) ∧
    sees .tlvnext { State.reset with opb := 0x40010000 } (fun t => t.errcode) = some .bounds ∧
    sees .tlvnext { State.reset with opb := 0x00300030 } (fun t => t.flags.word) = some 0x40 := by decide

/-! ## Witnesses: states and operands that meet the hypotheses of the statements, clause by clause -/

theorem witness_DecodeOfEncodeIsTheCommand : WellFormed (.numenc .res 20 16383) ∧ WellFormed (.minor .away 19) ∧
    WellFormed (.pad .right .zero 1 16383) := by decide

theorem witness_EncodeOfDecodeIsTheWord : decode 0x500B0005 = .ok (.numenc .res 12 5) := by decide

theorem witness_DecoderFollowsTheOpcodeMap :
    (∃ r ∈ opcodeTable, r.selects 0x60000033) ∧ decode 0x60000033 = .ok (.minor .away 19) ∧
    (∀ r ∈ opcodeTable, ¬ r.selects 0x90000000) ∧ decode 0x90000000 = .error .reservedOpcode ∧
    decode 0x580B0005 = .error .reservedBits := by decide

theorem witness_IllegalWordsEndInIllegalCmd :
    0x12 ≤ ((0x90000000 : Word).extractLsb' 27 5).toNat ∧
    (((0x88000001 : Word).extractLsb' 27 5).toNat ≤ 0x11 ∧ ∀ r ∈ opcodeTable, ¬ r.selects 0x88000001) ∧
    ((0x50054005 : Word) &&& 0xFFF00000 = 0x50000000 ∧ 20 < ((0x50054005 : Word).extractLsb' 14 5).toNat) ∧
    ((0x58000005 : Word) &&& 0xFFF80000 = 0x58000000 ∧ ((0x58000005 : Word).extractLsb' 14 5).toNat = 0) ∧
    ((0x60000014 : Word) &&& 0xFFFFFFC0 = 0x60000000 ∧ 19 < ((0x60000014 : Word).extractLsb' 0 5).toNat) ∧
    ((0x68000010 : Word) &&& 0xFF000000 = 0x68000000 ∧ ((0x68000010 : Word).extractLsb' 14 8).toNat = 0) ∧
    ((0x70000040 : Word) &&& 0xFFC00000 = 0x70000000 ∧ ((0x70000040 : Word).extractLsb' 14 8).toNat = 0) ∧
    decode (inFlight 0xF8000000 []).cmd = .error .reservedOpcode := by decide

theorem witness_StepPerformsTheDecodedCommand :
    ((inFlight 0x88000000 [.engine]).busy = true ∧ decode (inFlight 0x88000000 [.engine]).cmd = .ok .tlvnext ∧
      (inFlight 0x88000000 [.engine]).turns = .engine :: []) ∧
    ((inFlight 0 []).busy = true ∧ decode (inFlight 0 []).cmd = .ok .nop ∧ (inFlight 0 []).turns = []) ∧
    (({ State.reset with turns := [.engine] } : State).busy = false ∧
      ({ State.reset with turns := [.engine] } : State).turns = .engine :: []) ∧
    (State.reset.busy = false ∧ State.reset.turns = []) := by decide

theorem witness_StepMakesTheHostAccess :
    ((inFlight 0 [.host (.read .w8 0xFFFF), .engine]).turns = .host (.read .w8 0xFFFF) :: [.engine] ∧
      (inFlight 0 [.host (.read .w8 0xFFFF), .engine]).inReset = false) ∧
    ((held [.host (.write .w32 0x010 0)]).turns = .host (.write .w32 0x010 0) :: [] ∧
      (held [.host (.write .w32 0x010 0)]).inReset = true) ∧
    ((held [.host (.read .w8 0x4000)]).turns = .host (.read .w8 0x4000) :: [] ∧
      (held [.host (.read .w8 0x4000)]).inReset = true) := by decide

theorem witness_CommandInFlightCompletes : (inFlight 0x90000000 [.engine, .engine]).busy = true ∧
    (inFlight 0x90000000 [.engine, .engine]).turns = .engine :: [.engine] := by decide

theorem witness_IssueLatchesTheCommand : State.reset.busy = false := by decide

theorem witness_WritesWhileBusyAreRefused : (inFlight 0 []).busy = true ∧
    (∀ p ∈ [(Width.w32, 0x010), (.w32, 0x024), (.w8, 0x4000), (.w8, 0xBFFF), (.w32, 0x008), (.w32, 0x004), (.w32, 0x000),
      (.w32, 0x038), (.w32, 0x03C), (.w32, 0x3FFC), (.w8, 0xC000), (.w8, 0xFFFF)], legalAccess p.1 p.2 = true) ∧
    (0xFFFFFFFD : Word).getLsbD 1 = false ∧ (0x2 : Word).getLsbD 1 = true := by decide

theorem witness_BusErrorsChangeNothing :
    ((0x0000 : BitVec 16).toNat < 0x4000 ∧ Width.w8 ≠ .w32) ∧ ((0x3FFF : BitVec 16).toNat < 0x4000 ∧
      (0x3FFF : BitVec 16).toNat % 4 ≠ 0) ∧
    (0x4000 ≤ (0x4001 : BitVec 16).toNat ∧ (0x4001 : BitVec 16).toNat % 2 ≠ 0) ∧
    (0x4000 ≤ (0xFFFE : BitVec 16).toNat ∧ (0xFFFE : BitVec 16).toNat % 4 ≠ 0) ∧
    ¬ (((0x4000 : BitVec 16).toNat < 0x4000 ∧ (Width.w32 ≠ .w32 ∨ (0x4000 : BitVec 16).toNat % 4 ≠ 0)) ∨
      (0x4000 ≤ (0x4000 : BitVec 16).toNat ∧ (Width.w32 = .w16 ∧ (0x4000 : BitVec 16).toNat % 2 ≠ 0 ∨
        Width.w32 = .w32 ∧ (0x4000 : BitVec 16).toNat % 4 ≠ 0))) := by decide

theorem witness_RegisterMapReads : ∃ bit : Bool → Nat, bit false = 0 ∧ bit true = 1 := ⟨Bool.toNat, rfl, rfl⟩

theorem witness_ReservedOffsetsReadZero :
    ((0x03C : BitVec 16).toNat % 4 = 0 ∧ 0x03C ≤ (0x03C : BitVec 16).toNat ∧ (0x03C : BitVec 16).toNat < 0x4000) ∧
    ((0x3FFC : BitVec 16).toNat % 4 = 0 ∧ 0x03C ≤ (0x3FFC : BitVec 16).toNat ∧ (0x3FFC : BitVec 16).toNat < 0x4000) ∧
    (0xC000 ≤ (0xC000 : BitVec 16).toNat ∧ (0xC000 : BitVec 16).toNat % widthBytes .w32 = 0) ∧
    (0xC000 ≤ (0xFFFF : BitVec 16).toNat ∧ (0xFFFF : BitVec 16).toNat % widthBytes .w8 = 0) := by decide

theorem witness_BufferWriteIsLittleEndian : State.reset.busy = false ∧
    (16380 < 16384 ∧ (0xBFFC : BitVec 16).toNat = bufBase .fbuf + 16380 ∧ 16380 % widthBytes .w32 = 0) ∧
    (0 < 16384 ∧ (0x4000 : BitVec 16).toNat = bufBase .pbuf + 0 ∧ 0 % widthBytes .w16 = 0) := by decide

theorem witness_BufferReadIsLittleEndian :
    (16383 < 16384 ∧ (0x7FFF : BitVec 16).toNat = bufBase .pbuf + 16383 ∧ 16383 % widthBytes .w8 = 0) ∧
    (16382 < 16384 ∧ (0xBFFE : BitVec 16).toNat = bufBase .fbuf + 16382 ∧ 16382 % widthBytes .w16 = 0) := by decide

theorem witness_OperandRegisterWrites : State.reset.busy = false := by decide

theorem witness_CtrlWriteAndSoftReset : (0xFFFFFFFD : Word).toNat / 2 % 2 = 0 ∧ (0x3 : Word).toNat / 2 % 2 = 1 := by
  decide

theorem witness_SoftResetAbortsTheCommand :
    (inFlight 0x08000000 [.host (.write .w32 0x004 2), .engine]).inReset = false ∧
    (inFlight 0x08000000 [.host (.write .w32 0x004 2), .engine]).busy = true ∧ (2 : Word).getLsbD 1 = true ∧
    (inFlight 0x08000000 [.host (.write .w32 0x004 2), .engine]).turns =
      .host (.write .w32 0x004 2) :: .engine :: [] := by decide

theorem witness_HardwareResetClearsTheBlock :
    (inFlight 0x08000000 [.resetInput true]).turns = .resetInput true :: [] ∧
    ((held [.resetInput false, .engine]).turns = .resetInput false :: [.engine] ∧
      (held [.resetInput false, .engine]).inReset = true) := by decide

theorem witness_AssertedResetHoldsTheBlock :
    (BlockInv (held [.host (.write .w32 0x010 0x08000000)]) ∧ (held [.host (.write .w32 0x010 0x08000000)]).inReset = true ∧
      ∀ rest, (held [.host (.write .w32 0x010 0x08000000)]).turns ≠ .resetInput false :: rest) ∧
    (BlockInv (held [.host (.read .w32 0x038)]) ∧
      (held [.host (.read .w32 0x038)]).turns = .host (.read .w32 0x038) :: []) :=
  ⟨⟨by decide, by decide, fun rest h => by cases h⟩, by decide, by decide⟩

theorem witness_InterruptFollowsCompletion :
    (∃ t, exec .tlvnext { State.reset with ie := true } = .next t) ∧ State.reset.busy = false ∧
    (2 : Word).getLsbD 1 = true := ⟨⟨_, rfl⟩, by decide, by decide⟩

theorem witness_BothOrdersOfClearAndCompletion :
    (inFlight 0 [.host (.write .w32 0x008 2), .engine]).inReset = false ∧
    (inFlight 0 [.engine, .host (.write .w32 0x008 2)]).inReset = false ∧
    (inFlight 0 [.host (.write .w32 0x008 2), .engine]).busy = true ∧
    (inFlight 0 [.host (.write .w32 0x008 2), .engine]).turns = .host (.write .w32 0x008 2) :: .engine :: [] ∧
    (inFlight 0 [.engine, .host (.write .w32 0x008 2)]).busy = true ∧
    (inFlight 0 [.engine, .host (.write .w32 0x008 2)]).turns = .engine :: .host (.write .w32 0x008 2) :: [] := by
  decide

theorem witness_CommandOperandsAreFrozen : (inFlight 0 []).busy = true ∧
    (∀ (w : Width) (o : BitVec 16) (d : Word), Access.write .w32 0x004 1 = .write w o d → o = 0x004 →
      d.getLsbD 1 = false) := by
  refine ⟨by decide, fun w o d h _ => ?_⟩
  cases h
  decide

theorem witness_EncodeBuildsTheFrame : ({ State.reset with plen := 9999 } : State).plen.toNat ≤ 9999 ∧
    State.reset.plen.toNat ≤ 9999 ∧ 9999 < ({ State.reset with plen := 10000 } : State).plen.toNat := by decide

theorem witness_DecodeJudgesTheFrame : ∀ n ∈ [5, 16384], ∃ (s : State) (x : Byte) (raw : BitVec 16),
    s.flen.toNat = n ∧ 5 ≤ n ∧ n ≤ 16384 ∧ xorBytes (s.readBytes .fbuf 1 (n - 2)) = x ∧
    s.readByte .fbuf 1 ++ s.readByte .fbuf 2 = raw := by
  intro n hn
  refine ⟨{ State.reset with flen := BitVec.ofNat 16 n }, _, _, ?_, ?_, ?_, rfl, rfl⟩ <;>
    · revert n; decide

theorem witness_BadFrameLengthIsAnError : 16384 < ({ State.reset with flen := 16385 } : State).flen.toNat ∧
    ({ State.reset with flen := 4 } : State).flen.toNat < 5 := by decide

theorem witness_FrameRoundTrip : ∃ s : State, s.inReset = false ∧ s.busy = false ∧ s.plen.toNat ≤ 9999 ∧
    s.turns = .host (.write .w32 0x010 0x08000000) :: .engine :: .host (.write .w32 0x010 0x10000000) :: .engine :: [] :=
  ⟨{ State.reset with
      plen := 9999, turns := [.host (.write .w32 0x010 0x08000000), .engine, .host (.write .w32 0x010 0x10000000),
        .engine] }, by decide⟩

theorem witness_SingleBitErrorsAreDetected : ∃ (s t u : State) (n j bit l : Nat), s.plen.toNat ≤ 9999 ∧
    exec .encode s = .next t ∧ t.flen.toNat = n ∧ 1 ≤ j ∧ j < n - 1 ∧ bit < 8 ∧
    u = t.writeBytes .fbuf j [t.readByte .fbuf j ^^^ BitVec.twoPow 8 bit] ∧ 1 ≤ l ∧ l < n - 1 ∧ l ≠ j :=
  ⟨State.reset, _, _, 5, 3, 7, 1, by decide, rfl, by decide, by decide, by decide, by decide, rfl, by decide⟩

theorem witness_ChecksumIsBitParity : [(1 : Byte), 2, 3].Perm [3, 1, 2] := by decide

theorem witness_LrcOfARange : ∃ s : State, s.opb.toNat = 65536 * 0 + 16384 ∧ 16384 < 65536 ∧ 16384 + 0 ≤ 16384 :=
  ⟨{ State.reset with opb := 0x00004000 }, by decide⟩

theorem witness_LrcOfARange_bounds : ∃ s : State, s.opb.toNat = 65536 * 1 + 16384 ∧ 16384 < 65536 ∧
    16384 < 16384 + 1 := ⟨{ State.reset with opb := 0x00014000 }, by decide⟩

theorem witness_VerifyComparesTheChecksum :
    (∃ s : State, s.opb.toNat = 65536 * 16384 + 0 ∧ 0 + 16384 ≤ 16384 ∧ s.opa.toNat ≤ 0xFF) ∧
    (∃ s : State, s.opb.toNat = 65536 * 16384 + 1 ∧ 16384 < 1 + 16384) ∧
    (∃ s : State, s.opb.toNat = 65536 * 0 + 0 ∧ 0 + 0 ≤ 16384 ∧ 0xFF < s.opa.toNat) :=
  ⟨⟨{ withOpa 0xFF with opb := 0x40000000 }, by decide⟩, ⟨{ State.reset with opb := 0x40000001 }, by decide⟩,
    ⟨withOpa 0x100, by decide⟩⟩

theorem witness_FrameIdentity : ({ State.reset with flen := 5 } : State).flen.toNat = 5 ∧
    ({ State.reset with flen := 16384 } : State).flen.toNat = 16384 := by decide

theorem witness_BcdencPacksFourDigits : (withOpa 9999).opa.toNat = 9999 ∧ (withOpa 10000).opa.toNat = 10000 := by
  decide

theorem witness_BcddecReadsFourDigits : (withOpa 0x9999).opa.toNat = 4096 * 9 + 256 * 9 + 16 * 9 + 9 ∧
    (withOpa 0xA000).opa.toNat = 4096 * 10 + 256 * 0 + 16 * 0 + 0 ∧ 65536 ≤ (withOpa 0x10000).opa.toNat := by decide

theorem witness_BcdstStoresTheLength : (withOpa 9999).opa.toNat ≤ 9999 ∧ (16382 : BitVec 14).toNat ≤ 16382 ∧
    16382 < (16383 : BitVec 14).toNat ∧ 9999 < (withOpa 10000).opa.toNat := by decide

theorem witness_BcdldLoadsTheLength :
    (((inPbuf 16382 [0x99, 0x09]).readByte .pbuf (16382 : BitVec 14).toNat).toNat = 0x99 ∧
      ((inPbuf 16382 [0x99, 0x09]).readByte .pbuf ((16382 : BitVec 14).toNat + 1)).toNat = 0x09) ∧
    (((inPbuf 0 [0x12, 0x3A]).readByte .pbuf (0 : BitVec 14).toNat).toNat = 0x12 ∧
      ((inPbuf 0 [0x12, 0x3A]).readByte .pbuf ((0 : BitVec 14).toNat + 1)).toNat = 0x3A ∧ 9 < 0x3A % 16) ∧
    16382 < (16383 : BitVec 14).toNat := by decide

theorem witness_BcdRoundTrip : (withOpa 9999).opa.toNat ≤ 9999 ∧ (16382 : BitVec 14).toNat + 2 ≤ 16384 ∧
    9999 < (withOpa 10000).opa.toNat := by decide

theorem witness_NumencWritesTheDigits : WellFormed (.numenc .opa 20 16364) ∧ WellFormed (.numenc .res 1 16383) ∧
    ((16364 : BitVec 14).toNat + (20 : BitVec 5).toNat ≤ 16384 ∧ (withOpa 7).opa.toNat < 10 ^ (20 : BitVec 5).toNat) ∧
    16384 < (16365 : BitVec 14).toNat + (20 : BitVec 5).toNat ∧
    ((16383 : BitVec 14).toNat + (1 : BitVec 5).toNat ≤ 16384 ∧
      10 ^ (1 : BitVec 5).toNat ≤ ({ State.reset with resLo := 10 } : State).res.toNat) := by decide

theorem witness_NumdecReadsTheDigits : WellFormed (.numdec 1 16383) ∧
    (16383 : BitVec 14).toNat + (1 : BitVec 5).toNat ≤ 16384 ∧
    (∀ k < (1 : BitVec 5).toNat, 0x30 ≤ ((inPbuf 16383 [0x39]).readByte .pbuf ((16383 : BitVec 14).toNat + k)).toNat ∧
      ((inPbuf 16383 [0x39]).readByte .pbuf ((16383 : BitVec 14).toNat + k)).toNat ≤ 0x39) ∧
    (9 : Nat) = (∑ k ∈ Finset.range (1 : BitVec 5).toNat,
      (((inPbuf 16383 [0x39]).readByte .pbuf ((16383 : BitVec 14).toNat + k)).toNat - 0x30) *
        10 ^ ((1 : BitVec 5).toNat - 1 - k)) ∧
    (∃ k < (1 : BitVec 5).toNat, ((inPbuf 16383 [0x2F]).readByte .pbuf ((16383 : BitVec 14).toNat + k)).toNat < 0x30) ∧
    16384 < (16383 : BitVec 14).toNat + (2 : BitVec 5).toNat := by decide

/-- The digits of 2^64 (V114): the least number that is out of range. -/
def twoTo64 : List Byte := [0x31, 0x38, 0x34, 0x34, 0x36, 0x37, 0x34, 0x34, 0x30, 0x37, 0x33, 0x37, 0x30, 0x39, 0x35,
  0x35, 0x31, 0x36, 0x31, 0x36]

theorem witness_NumdecReadsTheDigits_range : WellFormed (.numdec 20 16364) ∧
    (16364 : BitVec 14).toNat + (20 : BitVec 5).toNat ≤ 16384 ∧
    (∀ k < (20 : BitVec 5).toNat, 0x30 ≤ ((inPbuf 16364 twoTo64).readByte .pbuf ((16364 : BitVec 14).toNat + k)).toNat ∧
      ((inPbuf 16364 twoTo64).readByte .pbuf ((16364 : BitVec 14).toNat + k)).toNat ≤ 0x39) ∧
    (2 ^ 64 : Nat) = (∑ k ∈ Finset.range (20 : BitVec 5).toNat,
      (((inPbuf 16364 twoTo64).readByte .pbuf ((16364 : BitVec 14).toNat + k)).toNat - 0x30) *
        10 ^ ((20 : BitVec 5).toNat - 1 - k)) := by decide

theorem witness_DigitStringRoundTrip : WellFormed (.numenc .opa 20 16364) ∧
    (16364 : BitVec 14).toNat + (20 : BitVec 5).toNat ≤ 16384 ∧
    ((withOpa 18446744073709551615).numSource .opa).toNat < 10 ^ (20 : BitVec 5).toNat := by decide

theorem witness_MinorRoundsTheAmount :
    (WellFormed (.minor .half 2) ∧ (withOpa 18446744073709551615).opa.toNat = 18446744073709551615 ∧
      (2 : BitVec 5).toNat ≤ 2 ∧ 18446744073709551615 * 10 ^ (2 - (2 : BitVec 5).toNat) < 2 ^ 64) ∧
    (WellFormed (.minor .away 0) ∧ (withOpa 184467440737095517).opa.toNat = 184467440737095517 ∧
      2 ^ 64 ≤ 184467440737095517 * 10 ^ (2 - (0 : BitVec 5).toNat)) ∧
    (WellFormed (.minor .half 3) ∧ 2 < (3 : BitVec 5).toNat ∧ WellFormed (.minor .away 19)) := by decide

theorem witness_PadFillsTheField : WellFormed (.pad .left .space 3 16381) ∧ WellFormed (.pad .right .zero 3 16381) ∧
    (({ State.reset with opb := 0x00033FFD } : State).opb.toNat = 65536 * 3 + 16381 ∧ 16381 + 3 ≤ 16384 ∧
      (16381 : BitVec 14).toNat + (3 : BitVec 8).toNat ≤ 16384 ∧ 3 ≤ (3 : BitVec 8).toNat) ∧
    (({ State.reset with opb := 0x00033FFE } : State).opb.toNat = 65536 * 3 + 16382 ∧ 16384 < 16382 + 3) ∧
    (({ State.reset with opb := 0x00040000 } : State).opb.toNat = 65536 * 4 + 0 ∧ 0 + 4 ≤ 16384 ∧
      (3 : BitVec 8).toNat < 4) := by decide

theorem witness_FldlenFindsTheFirstNul : WellFormed (.fldlen 2 16382) ∧
    (16382 : BitVec 14).toNat + (2 : BitVec 8).toNat ≤ 16384 ∧
    ((inPbuf 16382 [0x41, 0x00]).readByte .pbuf ((16382 : BitVec 14).toNat + 1) = 0x00 ∧
      ∀ l < 1, (inPbuf 16382 [0x41, 0x00]).readByte .pbuf ((16382 : BitVec 14).toNat + l) ≠ 0x00) ∧
    (∀ k < (2 : BitVec 8).toNat, (inPbuf 16382 [0x41, 0x42]).readByte .pbuf ((16382 : BitVec 14).toNat + k) ≠ 0x00) ∧
    16384 < (16383 : BitVec 14).toNat + (2 : BitVec 8).toNat := by decide

theorem witness_DateValidIsGregorian : (0x07E8021D173B3B00 : BitVec 64).toNat =
      2 ^ 48 * 2024 + 2 ^ 40 * 2 + 2 ^ 32 * 29 + 2 ^ 24 * 23 + 2 ^ 16 * 59 + 2 ^ 8 * 59 + 0 ∧
    dateValid 0x07E8021D173B3B00 = true ∧ dateValid 0x07E7021D173B3B00 = false := by decide

theorem witness_DateencWritesTheDate : (16370 : BitVec 14).toNat + 14 ≤ 16384 ∧
    dateValid (withOpa 0x270F0C1F173B3B00).opa = true ∧ 16384 < (16371 : BitVec 14).toNat + 14 ∧
    dateValid (withOpa 0x07E80D0100000000).opa = false := by decide

/-- "99991231235959" (V166). -/
def lastDate : List Byte := [0x39, 0x39, 0x39, 0x39, 0x31, 0x32, 0x33, 0x31, 0x32, 0x33, 0x35, 0x39, 0x35, 0x39]

theorem witness_DatedecReadsTheDate :
    (16370 : BitVec 14).toNat + 14 ≤ 16384 ∧
    (∀ k < 14, 0x30 ≤ ((inPbuf 16370 lastDate).readByte .pbuf ((16370 : BitVec 14).toNat + k)).toNat ∧
      ((inPbuf 16370 lastDate).readByte .pbuf ((16370 : BitVec 14).toNat + k)).toNat ≤ 0x39) ∧
    (0x270F0C1F173B3B00 : BitVec 64).toNat =
      2 ^ 48 * decValue ((inPbuf 16370 lastDate).readBytes .pbuf (16370 : BitVec 14).toNat 4) +
        (∑ f ∈ Finset.range 5, 2 ^ (40 - 8 * f) *
          decValue ((inPbuf 16370 lastDate).readBytes .pbuf ((16370 : BitVec 14).toNat + 4 + 2 * f) 2)) ∧
    dateValid 0x270F0C1F173B3B00 = true ∧ 16384 < (16371 : BitVec 14).toNat + 14 := by decide

/-- Fourteen zeros spell a date value with YEAR 0, which is no date (V175); in the year "zzzz" no byte is a digit. -/
theorem witness_DatedecReadsTheDate_errors :
    (∀ k < 14, 0x30 ≤ ((inPbuf 0 (List.replicate 14 0x30)).readByte .pbuf ((0 : BitVec 14).toNat + k)).toNat ∧
      ((inPbuf 0 (List.replicate 14 0x30)).readByte .pbuf ((0 : BitVec 14).toNat + k)).toNat ≤ 0x39) ∧
    (0 : BitVec 64).toNat =
      2 ^ 48 * decValue ((inPbuf 0 (List.replicate 14 0x30)).readBytes .pbuf (0 : BitVec 14).toNat 4) +
        (∑ f ∈ Finset.range 5, 2 ^ (40 - 8 * f) *
          decValue ((inPbuf 0 (List.replicate 14 0x30)).readBytes .pbuf ((0 : BitVec 14).toNat + 4 + 2 * f) 2)) ∧
    dateValid 0 = false ∧
    0x39 < ((inPbuf 0 [0x7A, 0x7A, 0x7A, 0x7A]).readByte .pbuf ((0 : BitVec 14).toNat + 3)).toNat := by decide

theorem witness_DateRoundTrip : ∃ t : State, exec (.datedec 0) (inPbuf 0 lastDate) = .next t ∧ t.errcode = .none ∧
    (16370 : BitVec 14).toNat + 14 ≤ 16384 := ⟨_, rfl, by decide, by decide⟩

theorem witness_TlvnextReadsAnEntry :
    (({ State.reset with opb := 0x40004000 } : State).opb.toNat = 65536 * 16384 + 16384 ∧ 16384 < 65536 ∧
      16384 ≤ 16384) ∧
    (∃ s : State, s.opb.toNat = 65536 * 16384 + 16378 ∧ (s.readByte .pbuf (16378 + 2)).toNat = 0x30 + 0 ∧
      (s.readByte .pbuf (16378 + 3)).toNat = 0x30 + 0 ∧ (s.readByte .pbuf (16378 + 4)).toNat = 0x30 + 1 ∧
      1 = 100 * 0 + 10 * 0 + 1 ∧ 16378 + 5 + 1 ≤ 16384) :=
  ⟨by decide, { inPbuf 16378 [0x41, 0x31, 0x30, 0x30, 0x31, 0x58] with opb := 0x40003FFA }, by decide⟩

theorem witness_TlvnextErrorsInOrder :
    (({ State.reset with opb := 0x40010000 } : State).opb.toNat = 65536 * 16385 + 0 ∧ 16384 < 16385) ∧
    (({ State.reset with opb := 0x00040000 } : State).opb.toNat = 65536 * 4 + 0 ∧ 0 < 4 ∧ 4 < 0 + 5) ∧
    (∃ s : State, s.opb.toNat = 65536 * 5 + 0 ∧ 0 + 5 ≤ 5 ∧ 0x39 < (s.readByte .pbuf (0 + 4)).toNat) ∧
    (∃ s : State, s.opb.toNat = 65536 * 5 + 0 ∧ 0 + 5 ≤ 5 ∧ (s.readByte .pbuf (0 + 2)).toNat = 0x30 + 0 ∧
      (s.readByte .pbuf (0 + 3)).toNat = 0x30 + 0 ∧ (s.readByte .pbuf (0 + 4)).toNat = 0x30 + 1 ∧ 5 < 0 + 5 + 1) :=
  ⟨by decide, by decide, ⟨{ inPbuf 0 [0x41, 0x31, 0x30, 0x30, 0x3A] with opb := 0x00050000 }, by decide⟩,
    ⟨{ inPbuf 0 [0x41, 0x31, 0x30, 0x30, 0x31] with opb := 0x00050000 }, by decide⟩⟩

theorem witness_ErrorsArePrecise : (∃ t : State, exec .decode State.reset = .next t ∧ t.errcode ≠ .none) ∧
    (∃ t : State, completeInFlight (inFlight 0x10000000 []) = .next t ∧ t.errcode ≠ .none) ∧
    (∃ t : State, completeInFlight (inFlight 0x10000001 []) = .next t ∧ t.errcode ≠ .none) :=
  ⟨⟨_, rfl, by decide⟩, ⟨_, rfl, by decide⟩, ⟨_, rfl, by decide⟩⟩

theorem witness_CommandsWriteOnlyTheirTable :
    (∃ t : State, exec (.pad .left .zero 20 16364) State.reset = .next t) ∧
    pbufRange (.pad .left .zero 20 16364) = some (16364, 20) ∧ pbufRange .encode = Option.none ∧
    writesRes .nop = false ∧ (∃ t : State, exec .decode { State.reset with flen := 16384 } = .next t) ∧
    (∃ t : State, exec .encode { State.reset with plen := 9999 } = .next t) :=
  ⟨⟨_, rfl⟩, rfl, rfl, rfl, ⟨_, rfl⟩, ⟨_, rfl⟩⟩

theorem witness_EveryStepKeepsTheInvariant : ∃ t : State, BlockInv (inFlight 0x10000000 [.engine]) ∧
    step (inFlight 0x10000000 [.engine]) = .next t := ⟨_, by decide, rfl⟩

end Sys2Proof.Tests
end

section
/-! PROOFS. What a host access does, by the region and the register it reaches, and the statements of 10_state.md that
follow (spec/10_state.md R20 to R35, R42, R46). -/

namespace Sys2Proof.Machine

open Sys2Proof.Laws

/-! ## Legal accesses, by region -/

theorem legalAccess_registers (w : Width) (o : Nat) (h : o < 0x4000) :
    legalAccess w o = (w == .w32 && o % 4 == 0) := by
  simp only [legalAccess, regionOf_registers o h]

theorem legalAccess_reserved (w : Width) (o : Nat) (h : 0xC000 ≤ o) :
    legalAccess w o = (o % widthBytes w == 0) := by
  simp only [legalAccess, regionOf_reserved o h]

/-- The offsets between the register block and the reserved region are the buffer bytes (20_memory.md R61). -/
theorem exists_bufBase_add (o : Nat) (h₁ : 0x4000 ≤ o) (h₂ : o < 0xC000) :
    ∃ b i, i < 16384 ∧ o = bufBase b + i := by
  rcases Nat.lt_or_ge o 0x8000 with h | h
  · exact ⟨.pbuf, o - 0x4000, by omega, by simp only [bufBase, Config.pbufBase]; omega⟩
  · exact ⟨.fbuf, o - 0x8000, by omega, by simp only [bufBase, Config.fbufBase]; omega⟩

/-! ## Writes and reads, by region -/

theorem writeWindow_register (r : Reg) (w : Width) (d : Word) (s : State) :
    writeWindow w (regOffset r).toNat d s = writeReg r d s := by
  cases r <;> rfl

theorem writeWindow_buffer (b : Buf) (i : Nat) (h : i < 16384) (w : Width) (d : Word) (s : State) :
    writeWindow w (bufBase b + i) d s = unlessBusy s (s.writeBytes b i (bytesOfWord d (widthBytes w))) := by
  simp only [writeWindow, regionOf_buffer b i h]

/-- The reserved offsets of the register block, and the reserved region (10_state.md R34; 20_memory.md R61). -/
abbrev ReservedOffset (o : Nat) : Prop := 0x03C ≤ o ∧ o < 0x4000 ∨ 0xC000 ≤ o

theorem writeWindow_reserved (o : Nat) (h : ReservedOffset o) (w : Width) (d : Word) (s : State) :
    writeWindow w o d s = s := by
  rcases h with ⟨h₁, h₂⟩ | h
  · simp only [writeWindow, regionOf_registers o h₂, regAt_reserved o h₁]
  · simp only [writeWindow, regionOf_reserved o h]

theorem readWindow_reserved (o : Nat) (h : ReservedOffset o) (w : Width) (s : State) : readWindow w o s = 0 := by
  rcases h with ⟨h₁, h₂⟩ | h
  · simp only [readWindow, regionOf_registers o h₂, regAt_reserved o h₁]
  · simp only [readWindow, regionOf_reserved o h]

theorem hostAccess_write_legal {w : Width} {o : BitVec 16} (h : legalAccess w o.toNat = true) (d : Word) (s : State) :
    hostAccess (.write w o d) s = (writeWindow w o.toNat d s).respond false 0 := by
  rw [hostAccess_write, if_pos h]

theorem hostAccess_read_legal {w : Width} {o : BitVec 16} (h : legalAccess w o.toNat = true) (s : State) :
    hostAccess (.read w o) s = s.respond false (readWindow w o.toNat s) := by
  rw [hostAccess_read, if_pos h]

/-! ## Writes, by the kind of register -/

/-- The registers whose writes are refused while a command is in flight (10_state.md R46). -/
def guardedRegs : List Reg := [.cmd, .plen, .flen, .opaLo, .opaHi, .opb]

/-- The registers the host can only read (10_state.md R20, R35). -/
def readOnlyRegs : List Reg := [.id, .errcode, .resLo, .resHi, .lenfield, .flags, .reply]

theorem unlessBusy_busy {s : State} (h : s.busy = true) (t : State) : unlessBusy s t = { s with ovr := true } :=
  if_pos h

theorem unlessBusy_idle {s : State} (h : s.busy = false) (t : State) : unlessBusy s t = t := by
  rw [unlessBusy, h, if_neg Bool.false_ne_true]

theorem writeReg_guarded_busy {r : Reg} (hr : r ∈ guardedRegs) (d : Word) {s : State} (h : s.busy = true) :
    writeReg r d s = { s with ovr := true } := by
  fin_cases hr <;> exact unlessBusy_busy h _

theorem writeReg_readOnly {r : Reg} (hr : r ∈ readOnlyRegs) (d : Word) (s : State) : writeReg r d s = s := by
  fin_cases hr <;> rfl

theorem writeReg_ctrl_store {d : Word} (h : d.getLsbD 1 = false) (s : State) :
    writeReg .ctrl d s = { s with ie := d.getLsbD 0 } := by
  simp only [writeReg, writeCtrl, h, if_neg Bool.false_ne_true]

theorem writeReg_ctrl_reset {d : Word} (h : d.getLsbD 1 = true) (s : State) : writeReg .ctrl d s = s.softReset := by
  simp only [writeReg, writeCtrl, h, if_pos]
  rfl

theorem hostAccess_write_cmd_idle {s : State} (h : s.busy = false) (w : Word) :
    hostAccess (.write .w32 0x010 w) s = (s.issue w).respond false 0 := by
  rw [← unlessBusy_idle h (s.issue w)]
  exact hostAccess_write_reg .cmd w s

theorem hostAccess_write_status (d : Word) (s : State) :
    hostAccess (.write .w32 0x008 d) s = (writeStatus d s).respond false 0 :=
  hostAccess_write_reg .status d s

theorem hostAccess_write_ctrl (d : Word) (s : State) :
    hostAccess (.write .w32 0x004 d) s = (writeReg .ctrl d s).respond false 0 :=
  hostAccess_write_reg .ctrl d s

/-- A write to a guarded register or to a buffer byte, while a command is in flight, only sets OVR (10_state.md R46). -/
theorem writeWindow_guarded_busy {o : Nat} (w : Width) (d : Word) {s : State} (hb : s.busy = true)
    (ho : o ∈ guardedRegs.map (fun r => (regOffset r).toNat) ∨ 0x4000 ≤ o ∧ o < 0xC000) :
    writeWindow w o d s = { s with ovr := true } := by
  rcases ho with ho | ⟨h₁, h₂⟩
  · obtain ⟨r, hr, rfl⟩ := List.mem_map.1 ho
    rw [writeWindow_register, writeReg_guarded_busy hr d hb]
  · obtain ⟨b, i, hi, rfl⟩ := exists_bufBase_add o h₁ h₂
    rw [writeWindow_buffer b i hi, unlessBusy_busy hb]

/-- A write to a read-only register or to a reserved offset does nothing (10_state.md R34, R35). -/
theorem writeWindow_ignored {o : Nat} (w : Width) (d : Word) (s : State)
    (ho : o ∈ readOnlyRegs.map (fun r => (regOffset r).toNat) ∨ ReservedOffset o) : writeWindow w o d s = s := by
  rcases ho with ho | ho
  · obtain ⟨r, hr, rfl⟩ := List.mem_map.1 ho
    rw [writeWindow_register, writeReg_readOnly hr]
  · exact writeWindow_reserved o ho w d s

/-! ## What the registers read as -/

/-- Zeros above a value leave its number alone. -/
theorem toNat_zero_append {m k : Nat} (x : BitVec k) : (0#m ++ x).toNat = x.toNat := by simp

theorem ctrlWord_toNat (s : State) : s.ctrlWord.toNat = s.ie.toNat :=
  (toNat_zero_append _).trans (BitVec.toNat_ofBool s.ie)

theorem statusWord_toNat (s : State) :
    s.statusWord.toNat = s.busy.toNat + 2 * s.done.toNat + 4 * s.err.toNat + 8 * s.ovr.toNat := by
  simp only [State.statusWord, toNat_append_add, BitVec.toNat_ofBool, BitVec.toNat_ofNat]
  omega

theorem flagsWord_toNat (f : Flags) :
    f.word.toNat = f.ok.toNat + 2 * f.lenbcd.toNat + 4 * f.lenmatch.toNat + 8 * f.stxok.toNat + 16 * f.etxok.toNat +
      32 * f.nul.toNat + 64 * f.endOfField.toNat := by
  simp only [Flags.word, toNat_append_add, BitVec.toNat_ofBool, BitVec.toNat_ofNat]
  omega

/-- STATUS.ERR is 1 exactly after an error (10_state.md R23). -/
theorem err_eq_decide (s : State) : s.err = decide (s.errcode ≠ .none) := by
  unfold State.err
  cases s.errcode <;> rfl

/-- The number a register reads as, its bits as a sum of powers of two (10_state.md R21 to R33). -/
def registerNumber (s : State) : Reg → Nat
  | .id => 0x46434D07
  | .ctrl => s.ie.toNat
  | .status => s.busy.toNat + 2 * s.done.toNat + 4 * (decide (s.errcode ≠ .none)).toNat + 8 * s.ovr.toNat
  | .errcode => s.errcode.code.toNat
  | .cmd => s.cmd.toNat
  | .plen => s.plen.toNat
  | .flen => s.flen.toNat
  | .opaLo => s.opaLo.toNat
  | .opaHi => s.opaHi.toNat
  | .opb => s.opb.toNat
  | .resLo => s.resLo.toNat
  | .resHi => s.resHi.toNat
  | .lenfield => s.lenfield.toNat
  | .flags => s.flags.ok.toNat + 2 * s.flags.lenbcd.toNat + 4 * s.flags.lenmatch.toNat + 8 * s.flags.stxok.toNat +
      16 * s.flags.etxok.toNat + 32 * s.flags.nul.toNat + 64 * s.flags.endOfField.toNat
  | .reply => s.reply.toNat

theorem readReg_toNat (r : Reg) (s : State) : (readReg r s).toNat = registerNumber s r := by
  cases r with
  | ctrl => exact ctrlWord_toNat s
  | status => rw [readReg, statusWord_toNat, err_eq_decide, registerNumber]
  | flags => exact flagsWord_toNat s.flags
  | errcode | plen | flen | reply => exact toNat_zero_append _
  | id | cmd | opaLo | opaHi | opb | resLo | resHi | lenfield => rfl

theorem response_read_register (r : Reg) (s : State) :
    (hostAccess (.read .w32 (regOffset r)) s).response = some ⟨false, BitVec.ofNat 32 (registerNumber s r)⟩ := by
  rw [hostAccess_read_reg, State.respond_response, ← readReg_toNat, BitVec.ofNat_toNat, BitVec.setWidth_eq]

/-- The registers in the order of their offsets (10_state.md R20). -/
def allRegs : List Reg :=
  [.id, .ctrl, .status, .errcode, .cmd, .plen, .flen, .opaLo, .opaHi, .opb, .resLo, .resHi, .lenfield, .flags, .reply]

/-- The only reading of a bit as a number that is 0 for false and 1 for true. -/
theorem eq_boolToNat (bit : Bool → Nat) (h₀ : bit false = 0) (h₁ : bit true = 1) : bit = Bool.toNat := by
  funext b
  cases b
  · exact h₀
  · exact h₁

/-! ## The statements -/

/-- Settles O11: by the kind of register or region that the offset reaches. -/
theorem writesWhileBusyAreRefused : Obligations.WritesWhileBusyAreRefused := by
  intro s w o d hbusy hlegal
  have hwrite := hostAccess_write_legal hlegal d s
  have hstatus (ho : o.toNat = 0x008) : writeWindow w o.toNat d s = writeReg .status d s :=
    ho ▸ writeWindow_register .status w d s
  have hctrl (ho : o.toNat = 0x004) : writeWindow w o.toNat d s = writeReg .ctrl d s :=
    ho ▸ writeWindow_register .ctrl w d s
  refine ⟨_, rfl, fun ho => ?_, fun ho => ?_, fun ho hd => ?_, fun ho hd => ?_, fun ho => ?_,
    hostAccess_read_legal hlegal s⟩
  · rw [hwrite, writeWindow_guarded_busy w d hbusy ho]
    rfl
  · rw [hwrite, hstatus ho]
    rfl
  · rw [hwrite, hctrl ho, writeReg_ctrl_store hd]
    rfl
  · rw [hwrite, hctrl ho, writeReg_ctrl_reset hd]
    exact ⟨rfl, rfl, rfl⟩
  · rw [hwrite, writeWindow_ignored w d s ho]
    rfl

/-- Settles O15: a reserved offset is legal to access, reads 0 and ignores writes. -/
theorem reservedOffsetsReadZero : Obligations.ReservedOffsetsReadZero := by
  intro s w o d ho
  have hres : ReservedOffset o.toNat := by
    rcases ho with ⟨-, -, h₁, h₂⟩ | ⟨h, -⟩
    · exact .inl ⟨h₁, h₂⟩
    · exact .inr h
  have hlegal : legalAccess w o.toNat = true := by
    rcases ho with ⟨rfl, halign, -, h⟩ | ⟨h, halign⟩
    · rw [legalAccess_registers _ _ h, halign]
      rfl
    · rw [legalAccess_reserved _ _ h, halign]
      rfl
  refine ⟨?_, 0, ?_⟩
  · rw [hostAccess_read_legal hlegal, readWindow_reserved _ hres]
    rfl
  · rw [hostAccess_write_legal hlegal, writeWindow_reserved _ hres]
    rfl

/-- Settles O10: an idle block issues the word. -/
theorem issueLatchesTheCommand : Obligations.IssueLatchesTheCommand := by
  intro s w hidle
  exact ⟨_, hostAccess_write_cmd_idle hidle w, rfl⟩

/-- Settles O14: the list of the statement is the list of all registers with the numbers they read as. -/
theorem registerMapReads : Obligations.RegisterMapReads := by
  refine ⟨fun s bit h₀ h₁ p hp => ?_, by decide⟩
  obtain rfl := eq_boolToNat bit h₀ h₁
  obtain ⟨r, -, rfl⟩ : ∃ r ∈ allRegs, (regOffset r, registerNumber s r) = p := List.mem_map.1 hp
  exact response_read_register r s

/-- Settles O16: a read-only register ignores the write; a write to STATUS can only clear DONE and OVR. -/
theorem readOnlyRegistersIgnoreWrites : Obligations.ReadOnlyRegistersIgnoreWrites := by
  refine ⟨fun s d o ho => ?_, fun s d => ?_⟩
  · obtain ⟨r, hr, rfl⟩ : ∃ r ∈ readOnlyRegs, regOffset r = o := List.mem_map.1 ho
    exact ⟨0, by rw [hostAccess_write_reg, writeReg_readOnly hr]; rfl⟩
  · refine ⟨_, hostAccess_write_status d s, rfl, rfl, fun hovr => ?_, 0, rfl⟩
    exact (Bool.and_eq_true_iff.1 hovr).1

/-- Settles O19: an idle block stores the datum, PLEN and FLEN its low 16 bits. -/
theorem operandRegisterWrites : Obligations.OperandRegisterWrites := by
  intro s d hidle
  have hwrite (r : Reg) {t : State} (hr : writeReg r d s = unlessBusy s t) :
      hostAccess (.write .w32 (regOffset r) d) s = t.respond false 0 := by
    rw [hostAccess_write_reg, hr, unlessBusy_idle hidle]
  exact ⟨⟨_, hwrite .plen rfl, rfl⟩, ⟨_, hwrite .flen rfl, rfl⟩, ⟨_, hwrite .opaLo rfl, rfl⟩,
    ⟨_, hwrite .opaHi rfl, rfl⟩, ⟨_, hwrite .opb rfl, rfl⟩⟩

/-- Settles O20: DONE and OVR stay exactly when they were set and their bit of the datum is 0. -/
theorem statusWriteClearsOnes : Obligations.StatusWriteClearsOnes := by
  intro s d
  have hstays (b : Bool) (k : Nat) : (b && !d.getLsbD k) = true ↔ b = true ∧ d.toNat / 2 ^ k % 2 = 0 := by
    simp [BitVec.getLsbD, Nat.testBit_eq_decide_div_mod_eq]
  exact ⟨_, hostAccess_write_status d s, rfl, hstays s.done 1, hstays s.ovr 3⟩

end Sys2Proof.Machine
end

section
/-! PROOFS. The write table of the commands, proved update by update and composed along each command's pseudocode, and
the interrupt line that follows (spec/10_state.md R41, R44, R45). -/

namespace Sys2Proof.Machine

/-! ## The pseudocode of each command, and its ending -/

/-- The result of a command's pseudocode, before its completion (10_state.md R41). -/
def pseudocode (i : Instr) (s : State) : Result :=
  match i with
  | .nop => .ok ({}, s)
  | .encode => encodeResult s
  | .decode => decodeResult s
  | .check => checkResult s
  | .lrc b => lrcResult b s
  | .verify b => verifyResult b s
  | .bcdenc => bcdencResult s
  | .bcddec => bcddecResult s
  | .bcdst addr => bcdstResult addr.toNat s
  | .bcdld addr => bcdldResult addr.toNat s
  | .numenc src width addr => numencResult src width.toNat addr.toNat s
  | .numdec width addr => numdecResult width.toNat addr.toNat s
  | .minor rmode scale => minorResult rmode scale.toNat s
  | .pad rjust padz width addr => padResult rjust padz width.toNat addr.toNat s
  | .fldlen width addr => fldlenResult width.toNat addr.toNat s
  | .dateenc addr => dateencResult addr.toNat s
  | .datedec addr => datedecResult addr.toNat s
  | .tlvnext => tlvnextResult s

/-- DECODE and CHECK, which judge a frame in REPLY (10_state.md R33, R45). -/
abbrev JudgesFrame (i : Instr) : Prop := i = .decode ∨ i = .check

/-- The completion of a command: DECODE and CHECK answer NAK to an error (10_state.md R41; 60_exceptions.md R252). -/
theorem exec_eq_commit (i : Instr) (s : State) :
    exec i s = .next (if JudgesFrame i then s.commitJudged (pseudocode i s) else s.commit (pseudocode i s)) := by
  cases i <;> rfl

/-- Everything a command can do: raise an error, raise one with NAK, or succeed with its pseudocode's state. -/
theorem exec_cases {i : Instr} {s t : State} (h : exec i s = .next t) :
    (∃ e, t = s.raise e) ∨ (JudgesFrame i ∧ ∃ e, t = s.raiseNak e) ∨
      ∃ f u, pseudocode i s = .ok (f, u) ∧ t = u.succeed f := by
  rw [exec_eq_commit] at h
  obtain rfl := Host.Outcome.next.inj h
  split
  · rename_i hi
    rcases commitJudged_cases s (pseudocode i s) with ⟨e, -, ht⟩ | ⟨f, u, hu, ht⟩
    · exact .inr (.inl ⟨hi, e, ht⟩)
    · exact .inr (.inr ⟨f, u, hu, ht⟩)
  · rcases commit_cases s (pseudocode i s) with ⟨e, -, ht⟩ | ⟨f, u, hu, ht⟩
    · exact .inl ⟨e, ht⟩
    · exact .inr (.inr ⟨f, u, hu, ht⟩)

/-- Every completion, of whatever command, ends with BUSY 0 and DONE 1 (10_state.md R41). -/
theorem exec_busy_done {i : Instr} {s t : State} (h : exec i s = .next t) : t.busy = false ∧ t.done = true := by
  rcases exec_cases h with ⟨e, rfl⟩ | ⟨-, e, rfl⟩ | ⟨f, u, -, rfl⟩ <;> exact ⟨rfl, rfl⟩

/-! ## The write table -/

/-- What no completion writes: the registers in no column of the write table, and the model's own fields. -/
def State.outsideTable (s : State) :
    (Bool × Bool × Word) × (Word × Word) × (Bool × Nat × List Turn × Option Response) :=
  ((s.ie, s.ovr, s.cmd), (s.opaLo, s.opaHi), (s.inReset, s.epoch, s.turns, s.response))

/-- The state `t` differs from `s` only where the write table lets a command write (10_state.md R45). -/
structure ObeysTable (i : Instr) (s t : State) : Prop where
  outside : t.outsideTable = s.outsideTable
  plen : i ≠ .decode → t.plen = s.plen
  flen : i ≠ .encode → t.flen = s.flen
  fbuf : i ≠ .encode → t.fbuf = s.fbuf
  judged : ¬ JudgesFrame i → t.lenfield = s.lenfield ∧ t.reply = s.reply
  opb : i ≠ .tlvnext → t.opb = s.opb
  opbHigh : t.opbHigh = s.opbHigh
  res : writesRes i = false → t.res = s.res
  pbuf : i ≠ .decode → pbufRange i = Option.none → t.pbuf = s.pbuf
  encodeRange : i = .encode → ∀ k, s.plen.toNat + 5 ≤ k → t.readByte .fbuf k = s.readByte .fbuf k
  decodeRange : i = .decode → ∀ k, s.flen.toNat - 5 ≤ k → t.readByte .pbuf k = s.readByte .pbuf k
  fieldRange : ∀ a n, pbufRange i = some (a, n) →
    ∀ k, k < a ∨ a + n ≤ k → t.readByte .pbuf k = s.readByte .pbuf k

namespace ObeysTable

variable {i : Instr} {s t u : State}

theorem refl (i : Instr) (s : State) : ObeysTable i s s := by
  constructor <;> intros <;> trivial

/-- Updates that obey the table compose: ENCODE leaves PLEN and DECODE leaves FLEN, so their ranges stay the same. -/
theorem trans (h₁ : ObeysTable i s t) (h₂ : ObeysTable i t u) : ObeysTable i s u where
  outside := h₂.outside.trans h₁.outside
  plen hi := (h₂.plen hi).trans (h₁.plen hi)
  flen hi := (h₂.flen hi).trans (h₁.flen hi)
  fbuf hi := (h₂.fbuf hi).trans (h₁.fbuf hi)
  judged hi := ⟨(h₂.judged hi).1.trans (h₁.judged hi).1, (h₂.judged hi).2.trans (h₁.judged hi).2⟩
  opb hi := (h₂.opb hi).trans (h₁.opb hi)
  opbHigh := h₂.opbHigh.trans h₁.opbHigh
  res hi := (h₂.res hi).trans (h₁.res hi)
  pbuf hi hr := (h₂.pbuf hi hr).trans (h₁.pbuf hi hr)
  encodeRange hi k hk := by
    have hplen : t.plen = s.plen := h₁.plen (by simp [hi])
    exact (h₂.encodeRange hi k (by rwa [hplen])).trans (h₁.encodeRange hi k hk)
  decodeRange hi k hk := by
    have hflen : t.flen = s.flen := h₁.flen (by simp [hi])
    exact (h₂.decodeRange hi k (by rwa [hflen])).trans (h₁.decodeRange hi k hk)
  fieldRange a n hr k hk := (h₂.fieldRange a n hr k hk).trans (h₁.fieldRange a n hr k hk)

/-! ### The updates -/

theorem succeed (i : Instr) (s : State) (f : Flags) : ObeysTable i s (s.succeed f) where
  __ := refl i s

theorem raise (i : Instr) (s : State) (e : ErrCode) : ObeysTable i s (s.raise e) where
  __ := refl i s

theorem raiseNak (hi : JudgesFrame i) (s : State) (e : ErrCode) : ObeysTable i s (s.raiseNak e) where
  __ := refl i s
  judged hn := absurd hi hn

theorem setRes (hi : writesRes i = true) (s : State) (v : BitVec 64) : ObeysTable i s (s.setRes v) where
  __ := refl i s
  res hn := by simp [hi] at hn

theorem setOpbLow (s : State) (v : BitVec 16) : ObeysTable .tlvnext s (s.setOpbLow v) where
  __ := refl .tlvnext s
  opb hi := absurd rfl hi
  opbHigh := State.opbHigh_setOpbLow s v

/-- A write of PBUF at the range that the command's fields name. -/
theorem writeField {a : Nat} {bytes : List Byte} (hr : pbufRange i = some (a, bytes.length)) (hi : i ≠ .decode)
    (s : State) : ObeysTable i s (s.writeBytes .pbuf a bytes) where
  __ := refl i s
  pbuf _ hnone := by simp [hr] at hnone
  decodeRange hdec := absurd hdec hi
  fieldRange a' n hr' k hk := by
    obtain ⟨rfl, rfl⟩ : a = a' ∧ bytes.length = n := by simpa [hr] using hr'
    rw [readByte_writeBytes, dif_neg (by omega)]

theorem setLenfieldReply (hi : JudgesFrame i) (s : State) (w : Word) (r : Byte) :
    ObeysTable i s { s with lenfield := w, reply := r } where
  __ := refl i s
  judged hn := absurd hi hn

theorem setFlen (s : State) (n : BitVec 16) : ObeysTable .encode s { s with flen := n } where
  __ := refl .encode s
  flen hi := absurd rfl hi

theorem setPlen (s : State) (n : BitVec 16) : ObeysTable .decode s { s with plen := n } where
  __ := refl .decode s
  plen hi := absurd rfl hi

/-- ENCODE's frame, no longer than PLEN and the frame's five other bytes. -/
theorem writeFrame (s : State) {bytes : List Byte} (hlen : bytes.length = s.plen.toNat + 5) :
    ObeysTable .encode s (s.writeBytes .fbuf 0 bytes) where
  __ := refl .encode s
  fbuf hi := absurd rfl hi
  encodeRange _ k hk := by rw [readByte_writeBytes, dif_neg (by omega)]

/-- DECODE's payload, FLEN without the frame's five other bytes. -/
theorem writePayload (s : State) {bytes : List Byte} (hlen : bytes.length = s.flen.toNat - 5) :
    ObeysTable .decode s (s.writeBytes .pbuf 0 bytes) where
  __ := refl .decode s
  pbuf hi := absurd rfl hi
  decodeRange _ k hk := by rw [readByte_writeBytes, dif_neg (by omega)]
  fieldRange a n hr := by simp [pbufRange] at hr

theorem judgeFrame (hi : JudgesFrame i) (s : State) (n : Nat) : ObeysTable i s (s.judgeFrame n) := by
  have hres : writesRes i = true := by rcases hi with rfl | rfl <;> rfl
  exact (setLenfieldReply hi s _ _).trans (setRes hres _ _)

end ObeysTable

/-! ## The pseudocode obeys the write table -/

/-- A source no longer than the field fills it exactly, on either side (43_field_marshal.md R204). -/
theorem padField_length {rjust : Justify} {padz : PadChar} {w : Nat} {source : List Byte}
    (h : source.length ≤ w) : (padField rjust padz w source).length = w := by
  cases rjust <;> simp [padField] <;> omega

/-- The result, when it is no error, obeys the write table. -/
def ResultObeys (i : Instr) (s : State) : Result → Prop
  | .ok (_, u) => ObeysTable i s u
  | .error _ => True

namespace ResultObeys

variable {i : Instr} {s u : State}

theorem error {e : ErrCode} : ResultObeys i s (.error e) := trivial

theorem ok {f : Flags} (h : ObeysTable i s u) : ResultObeys i s (.ok (f, u)) := h

theorem ite {c : Prop} [Decidable c] {r r' : Result} (h : ResultObeys i s r) (h' : ResultObeys i s r') :
    ResultObeys i s (if c then r else r') := by
  split
  · exact h
  · exact h'

theorem checkFlen {n : Nat} {f : Flags} (h : ObeysTable i s u) : ResultObeys i s (checkFlen n (f, u)) :=
  ite error (ite error (ok h))

theorem setRes {f : Flags} {v : BitVec 64} (hi : writesRes i = true) : ResultObeys i s (.ok (f, s.setRes v)) :=
  ok (.setRes hi s v)

theorem fromBcd {r : BitVec 16} (hi : writesRes i = true) : ResultObeys i s (fromBcd s r) := ite (setRes hi) error

end ResultObeys

theorem encodeResult_obeys (s : State) : ResultObeys .encode s (encodeResult s) := by
  have hlen : (frameOf (s.readBytes .pbuf 0 s.plen.toNat)).length = s.plen.toNat + 5 := by
    simp [frameOf, frameBody]
  exact .ite .error (.ok (((ObeysTable.writeFrame s hlen).trans (.setFlen _ _)).trans (.setRes rfl _ _)))

theorem decodeResult_obeys (s : State) : ResultObeys .decode s (decodeResult s) := by
  have hlen : (s.readBytes .fbuf 3 (s.flen.toNat - 5)).length = s.flen.toNat - 5 := readBytes_length ..
  exact .checkFlen (((ObeysTable.judgeFrame (.inl rfl) s s.flen.toNat).trans
    (.writePayload (s.judgeFrame s.flen.toNat) hlen)).trans (.setPlen _ _))

theorem bcdstResult_obeys (addr : BitVec 14) (s : State) : ResultObeys (.bcdst addr) s (bcdstResult addr.toNat s) :=
  .ite .error (.ite .error (.ok ((ObeysTable.writeField rfl (by simp) s).trans (.setRes rfl _ _))))

theorem numencResult_obeys (src : NumSrc) (width : BitVec 5) (addr : BitVec 14) (s : State) :
    ResultObeys (.numenc src width addr) s (numencResult src width.toNat addr.toNat s) :=
  .ite .error (.ite .error (.ok (.writeField (by simp [pbufRange]) (by simp) s)))

theorem padResult_obeys (rjust : Justify) (padz : PadChar) (width : BitVec 8) (addr : BitVec 14) (s : State) :
    ResultObeys (.pad rjust padz width addr) s (padResult rjust padz width.toNat addr.toNat s) := by
  unfold padResult
  refine .ite .error ?_
  split
  · exact .error
  · rename_i hlen
    have hfit : (padField rjust padz width.toNat (s.readBytes .pbuf s.opbLow.toNat s.opbHigh.toNat)).length =
        width.toNat := padField_length (by rw [readBytes_length]; omega)
    exact .ok (.writeField (by rw [hfit]; rfl) (by simp) s)

theorem dateencResult_obeys (addr : BitVec 14) (s : State) :
    ResultObeys (.dateenc addr) s (dateencResult addr.toNat s) :=
  .ite .error (.ite .error (.ok (.writeField (by simp [pbufRange, dateString]) (by simp) s)))

theorem tlvnextResult_obeys (s : State) : ResultObeys .tlvnext s (tlvnextResult s) :=
  .ite .error (.ite (.ok (.refl _ s)) (.ite .error (.ite .error (.ite .error
    (.ok ((ObeysTable.setRes rfl s _).trans (.setOpbLow _ _)))))))

theorem pseudocode_obeys (i : Instr) (s : State) : ResultObeys i s (pseudocode i s) := by
  cases i with
  | nop => exact .ok (.refl _ s)
  | encode => exact encodeResult_obeys s
  | decode => exact decodeResult_obeys s
  | check => exact .checkFlen (.judgeFrame (.inr rfl) s _)
  | lrc b => exact .ite .error (.setRes rfl)
  | verify b => exact .ite .error (.ite .error (.setRes rfl))
  | bcdenc => exact .ite .error (.setRes rfl)
  | bcddec => exact .ite .error (.fromBcd rfl)
  | bcdst addr => exact bcdstResult_obeys addr s
  | bcdld addr => exact .ite .error (.fromBcd rfl)
  | numenc src width addr => exact numencResult_obeys src width addr s
  | numdec width addr => exact .ite .error (.ite .error (.ite .error (.setRes rfl)))
  | minor rmode scale => exact .ite .error (.setRes rfl)
  | pad rjust padz width addr => exact padResult_obeys rjust padz width addr s
  | fldlen width addr => exact .ite .error (.setRes rfl)
  | dateenc addr => exact dateencResult_obeys addr s
  | datedec addr => exact .ite .error (.ite .error (.ite .error (.setRes rfl)))
  | tlvnext => exact tlvnextResult_obeys s

/-- Every completion obeys the write table (10_state.md R45). -/
theorem exec_obeysTable {i : Instr} {s t : State} (h : exec i s = .next t) : ObeysTable i s t := by
  rcases exec_cases h with ⟨e, rfl⟩ | ⟨hi, e, rfl⟩ | ⟨f, u, hu, rfl⟩
  · exact .raise i s e
  · exact .raiseNak hi s e
  · have hobeys : ResultObeys i s (.ok (f, u)) := hu ▸ pseudocode_obeys i s
    exact hobeys.trans (.succeed i u f)

/-- States that agree outside the write table differ only in its registers and the buffers. -/
theorem eq_of_outsideTable_eq {s t : State} (h : t.outsideTable = s.outsideTable) :
    t = { s with
      busy := t.busy, done := t.done, errcode := t.errcode, flags := t.flags, plen := t.plen, flen := t.flen,
      resLo := t.resLo, resHi := t.resHi, opb := t.opb, lenfield := t.lenfield, reply := t.reply, pbuf := t.pbuf,
      fbuf := t.fbuf } := by
  cases s
  cases t
  simp only [State.outsideTable, Prod.mk.injEq] at h
  simp only [h]

/-! ## The statements -/

/-- Settles O57: every completion obeys the write table and ends with BUSY 0 and DONE 1. -/
theorem commandsWriteOnlyTheirTable : Obligations.CommandsWriteOnlyTheirTable := by
  intro i s t h
  obtain ⟨hbusy, hdone⟩ := exec_busy_done h
  have htable := exec_obeysTable h
  have hframe := eq_of_outsideTable_eq htable.outside
  rw [hbusy, hdone] at hframe
  exact ⟨hframe, htable.plen, fun hi => ⟨htable.flen hi, htable.fbuf hi⟩,
    fun hd hc => htable.judged (not_or.2 ⟨hd, hc⟩), htable.opb, htable.opbHigh, htable.res, htable.pbuf,
    htable.encodeRange, htable.decodeRange, htable.fieldRange⟩

/-- Settles O25: a completion sets DONE and keeps IE; an issue, a clear and a soft reset leave DONE 0. -/
theorem interruptFollowsCompletion : Obligations.InterruptFollowsCompletion := by
  refine ⟨fun i s t h => ?_, fun s w hidle => ?_, fun s d hd => ⟨?_, ?_⟩⟩
  · have hie : t.ie = s.ie := congrArg (fun x => x.1.1) (exec_obeysTable h).outside
    rw [State.irq, (exec_busy_done h).2, hie, Bool.and_true]
  · rw [hostAccess_write_cmd_idle hidle]
    exact Bool.and_false _
  · rw [hostAccess_write_status]
    simp [State.irq, writeStatus, hd]
  · rw [hostAccess_write_ctrl, writeReg_ctrl_reset hd]
    rfl

end Sys2Proof.Machine
end

section
/-! PROOFS. Which host accesses are bus errors, what a read returns and what a write to the window can change, and the
statements of 20_memory.md that follow (spec/20_memory.md R62 to R69, R75; spec/10_state.md R46). -/

namespace Sys2Proof.Machine

/-! ## Which accesses are legal -/

theorem legalAccess_above_registers (w : Width) {o : Nat} (h : 0x4000 ≤ o) :
    legalAccess w o = (o % widthBytes w == 0) := by
  rcases Nat.lt_or_ge o 0xC000 with h' | h'
  · obtain ⟨b, i, hi, rfl⟩ := exists_bufBase_add o h h'
    simp only [legalAccess, regionOf_buffer b i hi]
  · exact legalAccess_reserved w o h'

/-- An access that the window answers with a bus error (20_memory.md R64, R65). -/
abbrev BusError (w : Width) (o : Nat) : Prop :=
  (o < 0x4000 ∧ (w ≠ .w32 ∨ o % 4 ≠ 0)) ∨
    (0x4000 ≤ o ∧ (w = .w16 ∧ o % 2 ≠ 0 ∨ w = .w32 ∧ o % 4 ≠ 0))

theorem legalAccess_iff (w : Width) (o : Nat) : legalAccess w o = true ↔ ¬ BusError w o := by
  rcases Nat.lt_or_ge o 0x4000 with h | h
  · simp [legalAccess_registers w o h, BusError, h, Nat.not_le.2 h]
  · rw [legalAccess_above_registers w h]
    cases w <;> simp [BusError, widthBytes, h, Nat.not_lt.2 h, Nat.mod_one]

theorem bufBase_ge (b : Buf) : 0x4000 ≤ bufBase b := by cases b <;> decide

/-- The buffers begin at aligned offsets, so an index is aligned as its window offset is. -/
theorem bufBase_add_mod (b : Buf) (i : Nat) (w : Width) : (bufBase b + i) % widthBytes w = i % widthBytes w := by
  have hbase : widthBytes w ∣ bufBase b := by cases b <;> cases w <;> decide
  rw [Nat.add_mod, Nat.mod_eq_zero_of_dvd hbase, Nat.zero_add, Nat.mod_mod]

theorem legalAccess_buffer (b : Buf) {i : Nat} {w : Width} (h : i % widthBytes w = 0) :
    legalAccess w (bufBase b + i) = true := by
  rw [legalAccess_above_registers w (Nat.le_add_right_of_le (bufBase_ge b)), bufBase_add_mod, h]
  rfl

/-! ## What an access answers -/

theorem hostAccess_read_illegal {w : Width} {o : BitVec 16} (h : legalAccess w o.toNat ≠ true) (s : State) :
    hostAccess (.read w o) s = s.respond true 0 := by
  rw [hostAccess_read, if_neg h]

theorem hostAccess_write_illegal {w : Width} {o : BitVec 16} (h : legalAccess w o.toNat ≠ true) (d : Word)
    (s : State) : hostAccess (.write w o d) s = s.respond true 0 := by
  rw [hostAccess_write, if_neg h]

/-- No register reads the bus response. -/
@[simp] theorem readReg_respond (r : Reg) (s : State) (error : Bool) (data : Word) :
    readReg r (s.respond error data) = readReg r s := by
  cases r <;> rfl

@[simp] theorem readByte_respond (s : State) (error : Bool) (data : Word) (b : Buf) (i : Nat) :
    (s.respond error data).readByte b i = s.readByte b i := by
  cases b <;> rfl

@[simp] theorem readBytes_respond (s : State) (error : Bool) (data : Word) (b : Buf) (a n : Nat) :
    (s.respond error data).readBytes b a n = s.readBytes b a n := by
  cases b <;> rfl

/-- What a read returns does not depend on the bus response. -/
@[simp] theorem readWindow_respond (w : Width) (o : Nat) (s : State) (error : Bool) (data : Word) :
    readWindow w o (s.respond error data) = readWindow w o s := by
  simp only [readWindow, readReg_respond, readBytes_respond]

theorem readWindow_buffer (b : Buf) {i : Nat} (h : i < 16384) (w : Width) (s : State) :
    readWindow w (bufBase b + i) s = wordOfBytes (s.readBytes b i (widthBytes w)) := by
  simp only [readWindow, regionOf_buffer b i h]

/-! ## Little-endian words -/

/-- A further byte at the low end of a word that has room for it. -/
theorem shiftLeft_or_byte_toNat (x : Word) (b : Byte) (h : x.toNat < 2 ^ 24) :
    ((x <<< 8) ||| b.setWidth 32).toNat = b.toNat + 256 * x.toNat := by
  have hx : (x <<< 8).toNat = x.toNat <<< 8 := by
    rw [BitVec.toNat_shiftLeft, Nat.shiftLeft_eq]
    omega
  have hb : (b.setWidth 32).toNat = b.toNat := BitVec.toNat_setWidth_of_le (by omega)
  rw [BitVec.toNat_or, hx, hb, ← Nat.shiftLeft_add_eq_or_of_lt b.isLt, Nat.shiftLeft_eq]
  omega

/-- Up to four bytes are the base-256 digits of their word, the least significant first (20_memory.md R65). -/
theorem wordOfBytes_toNat (bytes : List Byte) (h : bytes.length ≤ 4) :
    (wordOfBytes bytes).toNat = Nat.ofDigits 256 (bytes.map BitVec.toNat) := by
  induction bytes with
  | nil => rfl
  | cons b rest ih =>
    rw [List.length_cons] at h
    have hrest := ih (by omega)
    have hroom : (wordOfBytes rest).toNat < 2 ^ 24 := by
      calc (wordOfBytes rest).toNat
        _ < 256 ^ (rest.map BitVec.toNat).length := by
          rw [hrest]
          refine Nat.ofDigits_lt_base_pow_length (by omega) fun x hx => ?_
          obtain ⟨c, -, rfl⟩ := List.mem_map.1 hx
          exact c.isLt
        _ ≤ 256 ^ 3 := Nat.pow_le_pow_right (by omega) (by rw [List.length_map]; omega)
    rw [wordOfBytes, shiftLeft_or_byte_toNat _ b hroom, hrest, List.map_cons, Nat.ofDigits_cons]

theorem ofDigits_map_range (base : Nat) (f : Nat → Nat) (n : Nat) :
    Nat.ofDigits base ((List.range n).map f) = ∑ k ∈ Finset.range n, f k * base ^ k := by
  induction n with
  | zero => rfl
  | succ n ih => simp [List.range_succ, Nat.ofDigits_append, ih, Finset.sum_range_succ, Nat.mul_comm]

theorem wordOfBytes_readBytes_toNat (s : State) (b : Buf) (a : Nat) {n : Nat} (h : n ≤ 4) :
    (wordOfBytes (s.readBytes b a n)).toNat = ∑ k ∈ Finset.range n, (s.readByte b (a + k)).toNat * 256 ^ k := by
  rw [wordOfBytes_toNat _ (by rwa [readBytes_length]), State.readBytes, List.map_map, ofDigits_map_range]
  rfl

theorem widthBytes_le (w : Width) : widthBytes w ≤ 4 := by cases w <;> decide

@[simp] theorem bytesOfWord_length (d : Word) (n : Nat) : (bytesOfWord d n).length = n := by simp [bytesOfWord]

/-- Byte `k` of a word is its digit `k` in base 256 (20_memory.md R65). -/
theorem bytesOfWord_getElem_toNat (d : Word) (n k : Nat) (h : k < (bytesOfWord d n).length) :
    (bytesOfWord d n)[k].toNat = d.toNat / 256 ^ k % 256 := by
  have hpow : 2 ^ (8 * k) = 256 ^ k := Nat.pow_mul 2 8 k
  simp [bytesOfWord, BitVec.extractLsb'_toNat, Nat.shiftRight_eq_div_pow, hpow]

/-! ## What a write to the window can change -/

theorem eq_regOffset_of_regAt {o : Nat} {r : Reg} (h : regAt o = some r) : o = (regOffset r).toNat := by
  unfold regAt at h
  split at h <;> cases h <;> rfl

/-- A write to the window is a register's write, a buffer's write, or ignored (20_memory.md R61). -/
theorem writeWindow_cases (w : Width) (o : Nat) (d : Word) (s : State) :
    (∃ r, o = (regOffset r).toNat ∧ writeWindow w o d s = writeReg r d s) ∨
      (∃ t, writeWindow w o d s = unlessBusy s t) ∨ writeWindow w o d s = s := by
  rcases Nat.lt_or_ge o 0x4000 with h | h
  · cases hr : regAt o with
    | some r =>
      obtain rfl := eq_regOffset_of_regAt hr
      exact .inl ⟨r, rfl, writeWindow_register r w d s⟩
    | none => exact .inr (.inr (by simp only [writeWindow, regionOf_registers o h, hr]))
  · rcases Nat.lt_or_ge o 0xC000 with h' | h'
    · obtain ⟨b, i, hi, rfl⟩ := exists_bufBase_add o h h'
      exact .inr (.inl ⟨_, writeWindow_buffer b i hi w d s⟩)
    · exact .inr (.inr (writeWindow_reserved o (.inr h') w d s))

/-- The states differ at most in IE, DONE and OVR, which no command reads, and in the bus response (20_memory.md
R75). -/
abbrev OperandsFrozen (s t : State) : Prop :=
  t = { s with ie := t.ie, done := t.done, ovr := t.ovr, response := t.response }

theorem operandsFrozen_respond {s t : State} (h : OperandsFrozen s t) (error : Bool) (data : Word) :
    OperandsFrozen s (t.respond error data) := by
  rw [OperandsFrozen, h]
  rfl

theorem writeReg_operandsFrozen {r : Reg} {d : Word} {s : State} (hbusy : s.busy = true)
    (hctrl : r = .ctrl → d.getLsbD 1 = false) : OperandsFrozen s (writeReg r d s) := by
  cases r with
  | ctrl => rw [writeReg_ctrl_store (hctrl rfl)]
  | status => rfl
  | cmd | plen | flen | opaLo | opaHi | opb => rw [writeReg_guarded_busy (by decide) d hbusy]
  | id | errcode | resLo | resHi | lenfield | flags | reply => rfl

theorem writeWindow_operandsFrozen (w : Width) {o : Nat} {d : Word} {s : State} (hbusy : s.busy = true)
    (hctrl : o = 0x004 → d.getLsbD 1 = false) : OperandsFrozen s (writeWindow w o d s) := by
  rcases writeWindow_cases w o d s with ⟨r, ho, hwrite⟩ | ⟨t, hwrite⟩ | hwrite
  · rw [hwrite]
    exact writeReg_operandsFrozen hbusy fun hr => hctrl (by rw [ho, hr]; rfl)
  · rw [hwrite, unlessBusy_busy hbusy]
  · rw [hwrite]

/-! ## The statements -/

/-- Settles O12: an access is legal exactly when it is no bus error. -/
theorem busErrorsChangeNothing : Obligations.BusErrorsChangeNothing := by
  intro s w o d
  refine ⟨fun herror => ?_, fun hnone => ?_⟩
  · have hillegal : legalAccess w o.toNat ≠ true := fun h => (legalAccess_iff w o.toNat).1 h herror
    exact ⟨hostAccess_read_illegal hillegal s, 0, hostAccess_write_illegal hillegal d s⟩
  · have hlegal := (legalAccess_iff w o.toNat).2 hnone
    intro a ha
    rcases List.mem_pair.1 ha with rfl | rfl
    · exact ⟨_, by rw [hostAccess_read_legal hlegal]; rfl⟩
    · exact ⟨_, by rw [hostAccess_write_legal hlegal]; rfl⟩

/-- Settles O17: the buffer holds the bytes of the datum at the index, and every other byte as before. -/
theorem bufferWriteIsLittleEndian : Obligations.BufferWriteIsLittleEndian := by
  intro s w b i o d hidle hi ho halign
  have hlegal : legalAccess w o.toNat = true := ho ▸ legalAccess_buffer b halign
  have hwrite : hostAccess (.write w o d) s =
      (s.writeBytes b i (bytesOfWord d (widthBytes w))).respond false 0 := by
    rw [hostAccess_write_legal hlegal, ho, writeWindow_buffer b i hi, unlessBusy_idle hidle]
  refine ⟨_, hwrite, ?_, fun k hk => ?_, fun j hj => ?_, fun c hc j => ?_⟩
  · cases b <;> rfl
  · have hin : i ≤ i + k ∧ i + k < i + (bytesOfWord d (widthBytes w)).length := by
      rw [bytesOfWord_length]
      omega
    rw [readByte_respond, readByte_writeBytes, dif_pos hin, bytesOfWord_getElem_toNat, Nat.add_sub_cancel_left]
  · rw [readByte_respond, readByte_writeBytes, dif_neg (by rw [bytesOfWord_length]; omega)]
  · rw [readByte_respond, readByte_writeBytes_other s b c hc.symm]

/-- Settles O18: the word read is the base-256 number of the bytes. -/
theorem bufferReadIsLittleEndian : Obligations.BufferReadIsLittleEndian := by
  intro s w b i o hi ho halign
  have hlegal : legalAccess w o.toNat = true := ho ▸ legalAccess_buffer b halign
  refine ⟨_, ?_, wordOfBytes_readBytes_toNat s b i (widthBytes_le w)⟩
  rw [hostAccess_read_legal hlegal, ho, readWindow_buffer b hi, State.respond_response]

/-- Settles O27: a write while a command is in flight reaches IE, DONE and OVR alone. -/
theorem commandOperandsAreFrozen : Obligations.CommandOperandsAreFrozen := by
  intro s a hbusy hreset
  refine ⟨_, rfl, ?_⟩
  cases a with
  | read w o =>
    rw [hostAccess_read]
    split <;> rfl
  | write w o d =>
    rw [hostAccess_write]
    split
    · have hctrl (ho : o.toNat = 0x004) : d.getLsbD 1 = false := hreset w o d rfl (BitVec.eq_of_toNat_eq ho)
      exact operandsFrozen_respond (writeWindow_operandsFrozen w hbusy hctrl) false 0
    · rfl

/-- Settles O13: a read changes the bus response alone, which no read depends on. -/
theorem readsHaveNoSideEffect : Obligations.ReadsHaveNoSideEffect := by
  intro s w o
  refine ⟨_, rfl, ?_⟩
  by_cases h : legalAccess w o.toNat = true
  · simp only [hostAccess_read_legal h, readWindow_respond]
    exact ⟨rfl, rfl⟩
  · simp only [hostAccess_read_illegal h]
    exact ⟨rfl, rfl⟩

end Sys2Proof.Machine
end

section
/-! PROOFS. The fields of a command word as numbers, the decoder inverted by the encoder, the opcode map's masks as
operation code and reserved bits, and the statements of 30_encoding.md that follow from them. -/

namespace Sys2Proof

open Sys2Proof.Laws Sys2Proof.Machine

/-! ## The one-bit operands -/

theorem bufOfBit_eq_iff {x : BitVec 1} {b : Buf} : bufOfBit x = b ↔ x = bufBit b := by
  cases b <;> revert x <;> decide

theorem srcOfBit_eq_iff {x : BitVec 1} {src : NumSrc} : srcOfBit x = src ↔ x = srcBit src := by
  cases src <;> revert x <;> decide

theorem rmodeOfBit_eq_iff {x : BitVec 1} {r : RMode} : rmodeOfBit x = r ↔ x = rmodeBit r := by
  cases r <;> revert x <;> decide

theorem padzOfBit_eq_iff {x : BitVec 1} {z : PadChar} : padzOfBit x = z ↔ x = padzBit z := by
  cases z <;> revert x <;> decide

theorem rjustOfBit_eq_iff {x : BitVec 1} {j : Justify} : rjustOfBit x = j ↔ x = rjustBit j := by
  cases j <;> revert x <;> decide

/-! ## The fields as numbers -/

theorem extractLsb'_eq_iff {c : Word} {k n : Nat} {x : BitVec n} :
    c.extractLsb' k n = x ↔ c.toNat / 2 ^ k % 2 ^ n = x.toNat := by
  rw [← BitVec.toNat_inj, BitVec.extractLsb'_toNat, Nat.shiftRight_eq_div_pow]

theorem extractLsb'_eq_zero_iff {c : Word} {k n : Nat} :
    c.extractLsb' k n = 0 ↔ c.toNat / 2 ^ k % 2 ^ n = 0 := extractLsb'_eq_iff

theorem opField_toNat (c : Word) : (opField c).toNat = c.toNat / 2 ^ 27 := by
  have hc := c.isLt
  rw [opField, BitVec.extractLsb'_toNat, Nat.shiftRight_eq_div_pow]
  omega

theorem addrField_eq_iff {c : Word} {a : BitVec 14} : addrField c = a ↔ c.toNat % 2 ^ 14 = a.toNat := by
  rw [addrField, extractLsb'_eq_iff, Nat.pow_zero, Nat.div_one]

theorem scaleField_eq_iff {c : Word} {x : BitVec 5} : scaleField c = x ↔ c.toNat % 2 ^ 5 = x.toNat := by
  rw [scaleField, extractLsb'_eq_iff, Nat.pow_zero, Nat.div_one]

theorem width5Field_eq_iff {c : Word} {w : BitVec 5} :
    width5Field c = w ↔ c.toNat / 2 ^ 14 % 2 ^ 5 = w.toNat := extractLsb'_eq_iff

theorem width8Field_eq_iff {c : Word} {w : BitVec 8} :
    width8Field c = w ↔ c.toNat / 2 ^ 14 % 2 ^ 8 = w.toNat := extractLsb'_eq_iff

theorem bitField_eq_iff {c : Word} {k : Nat} {x : BitVec 1} :
    bitField c k = x ↔ c.toNat / 2 ^ k % 2 = x.toNat := extractLsb'_eq_iff

/-! ## The formats: a word is the sum of its operation code and its fields (R91) -/

theorem formatN_iff {c : Word} (op : Nat) :
    c.toNat = op * 2 ^ 27 ↔ (opField c).toNat = op ∧ c.extractLsb' 0 27 = 0 := by
  simp only [opField_toNat, extractLsb'_eq_zero_iff, Nat.reducePow]
  omega

theorem formatR_iff {c : Word} (op : Nat) {x : BitVec 1} :
    c.toNat = op * 2 ^ 27 + x.toNat ↔ (opField c).toNat = op ∧ c.extractLsb' 1 26 = 0 ∧ bitField c 0 = x := by
  simp only [opField_toNat, extractLsb'_eq_zero_iff, bitField_eq_iff, Nat.reducePow]
  omega

theorem formatA_iff {c : Word} (op : Nat) {a : BitVec 14} :
    c.toNat = op * 2 ^ 27 + a.toNat ↔ (opField c).toNat = op ∧ c.extractLsb' 14 13 = 0 ∧ addrField c = a := by
  simp only [opField_toNat, extractLsb'_eq_zero_iff, addrField_eq_iff]
  omega

/-- Format W with SRC. -/
theorem formatW_iff {c : Word} (op : Nat) {x : BitVec 1} {w : BitVec 5} {a : BitVec 14} :
    c.toNat = op * 2 ^ 27 + x.toNat * 2 ^ 19 + w.toNat * 2 ^ 14 + a.toNat ↔
      (opField c).toNat = op ∧ c.extractLsb' 20 7 = 0 ∧ bitField c 19 = x ∧ width5Field c = w ∧ addrField c = a := by
  simp only [opField_toNat, extractLsb'_eq_zero_iff, bitField_eq_iff, width5Field_eq_iff, addrField_eq_iff]
  omega

/-- Format W with SRC reserved. -/
theorem formatW_reserved_iff {c : Word} (op : Nat) {w : BitVec 5} {a : BitVec 14} :
    c.toNat = op * 2 ^ 27 + w.toNat * 2 ^ 14 + a.toNat ↔
      (opField c).toNat = op ∧ c.extractLsb' 19 8 = 0 ∧ width5Field c = w ∧ addrField c = a := by
  simp only [opField_toNat, extractLsb'_eq_zero_iff, width5Field_eq_iff, addrField_eq_iff]
  omega

theorem formatS_iff {c : Word} (op : Nat) {x : BitVec 1} {n : BitVec 5} :
    c.toNat = op * 2 ^ 27 + x.toNat * 2 ^ 5 + n.toNat ↔
      (opField c).toNat = op ∧ c.extractLsb' 6 21 = 0 ∧ bitField c 5 = x ∧ scaleField c = n := by
  simp only [opField_toNat, extractLsb'_eq_zero_iff, bitField_eq_iff, scaleField_eq_iff]
  omega

theorem formatP_iff {c : Word} (op : Nat) {x y : BitVec 1} {w : BitVec 8} {a : BitVec 14} :
    c.toNat = op * 2 ^ 27 + x.toNat * 2 ^ 23 + y.toNat * 2 ^ 22 + w.toNat * 2 ^ 14 + a.toNat ↔
      (opField c).toNat = op ∧ c.extractLsb' 24 3 = 0 ∧ bitField c 23 = x ∧ bitField c 22 = y ∧
        width8Field c = w ∧ addrField c = a := by
  simp only [opField_toNat, extractLsb'_eq_zero_iff, bitField_eq_iff, width8Field_eq_iff, addrField_eq_iff]
  omega

theorem formatF_iff {c : Word} (op : Nat) {w : BitVec 8} {a : BitVec 14} :
    c.toNat = op * 2 ^ 27 + w.toNat * 2 ^ 14 + a.toNat ↔
      (opField c).toNat = op ∧ c.extractLsb' 22 5 = 0 ∧ width8Field c = w ∧ addrField c = a := by
  simp only [opField_toNat, extractLsb'_eq_zero_iff, width8Field_eq_iff, addrField_eq_iff]
  omega

/-! ## The decoder on an encoded word -/

/-- The format of a command's own word has its reserved bits 0 and gives every field back, legal or not. -/
theorem decodeFormat_encode (i : Instr) : decodeFormat (encode i) = .ok i := by
  cases i with
  | nop | encode | decode | check | bcdenc | bcddec | tlvnext => rfl
  | lrc b | verify b => cases b <;> rfl
  | bcdst a =>
    obtain ⟨hop, hzero, ha⟩ := (formatA_iff 0x08).1 (EncodedWord.bcdst a)
    simp [decodeFormat, requireZero, hop, hzero, ha]
  | bcdld a =>
    obtain ⟨hop, hzero, ha⟩ := (formatA_iff 0x09).1 (EncodedWord.bcdld a)
    simp [decodeFormat, requireZero, hop, hzero, ha]
  | dateenc a =>
    obtain ⟨hop, hzero, ha⟩ := (formatA_iff 0x0F).1 (EncodedWord.dateenc a)
    simp [decodeFormat, requireZero, hop, hzero, ha]
  | datedec a =>
    obtain ⟨hop, hzero, ha⟩ := (formatA_iff 0x10).1 (EncodedWord.datedec a)
    simp [decodeFormat, requireZero, hop, hzero, ha]
  | numenc src w a =>
    obtain ⟨hop, hzero, hsrc, hw, ha⟩ := (formatW_iff 0x0A).1 (EncodedWord.numenc src w a)
    simp [decodeFormat, requireZero, hop, hzero, srcOfBit_eq_iff.2 hsrc, hw, ha]
  | numdec w a =>
    obtain ⟨hop, hzero, hw, ha⟩ := (formatW_reserved_iff 0x0B).1 (EncodedWord.numdec w a)
    simp [decodeFormat, requireZero, hop, hzero, hw, ha]
  | minor r n =>
    obtain ⟨hop, hzero, hr, hn⟩ := (formatS_iff 0x0C).1 (EncodedWord.minor r n)
    simp [decodeFormat, requireZero, hop, hzero, rmodeOfBit_eq_iff.2 hr, hn]
  | pad j z w a =>
    obtain ⟨hop, hzero, hj, hz, hw, ha⟩ := (formatP_iff 0x0D).1 (EncodedWord.pad j z w a)
    simp [decodeFormat, requireZero, hop, hzero, rjustOfBit_eq_iff.2 hj, padzOfBit_eq_iff.2 hz, hw, ha]
  | fldlen w a =>
    obtain ⟨hop, hzero, hw, ha⟩ := (formatF_iff 0x0E).1 (EncodedWord.fldlen w a)
    simp [decodeFormat, requireZero, hop, hzero, hw, ha]

/-! ## What the decoder makes of any word -/

/-- The lowest reserved bit of an operation code's format: the fields lie below it (R91, R94). -/
def reservedFrom : Nat → Nat
  | 0x04 | 0x05 => 1
  | 0x08 | 0x09 | 0x0F | 0x10 => 14
  | 0x0A => 20
  | 0x0B => 19
  | 0x0C => 6
  | 0x0D => 24
  | 0x0E => 22
  | _ => 0

/-- The bits between the fields and the operation code are 0 (R95). -/
abbrev ReservedZero (op : Nat) (c : Word) : Prop :=
  c.extractLsb' (reservedFrom op) (27 - reservedFrom op) = 0

/-- The outcomes of reading a word by its format: a reserved opcode, a reserved bit, or the command whose encoding the
word is, named by the row of its opcode (R94, R95, R96). -/
inductive FormatOutcome (c : Word) : Except IllegalWord Instr → Prop where
  | reservedOpcode (hop : 0x12 ≤ (opField c).toNat) : FormatOutcome c (.error .reservedOpcode)
  | reservedBits (hop : (opField c).toNat ≤ 0x11) (hbits : ¬ ReservedZero (opField c).toNat c) :
      FormatOutcome c (.error .reservedBits)
  | command (i : Instr) (hop : (opField c).toNat ≤ 0x11) (hbits : ReservedZero (opField c).toNat c)
      (henc : encode i = c)
      (hname : opcodeTable[(opField c).toNat]?.map OpcodeRow.mnemonic = some (mnemonicOf i)) : FormatOutcome c (.ok i)

/-- The outcome of one format, from the sum of operation code and fields that its command is encoded as. -/
theorem formatOutcome_requireZero {c : Word} (op : Nat) {i : Instr} {word : Nat} (hop : (opField c).toNat = op)
    (hname : opcodeTable[op]?.map OpcodeRow.mnemonic = some (mnemonicOf i))
    (hencode : (encode i).toNat = word) (hword : ReservedZero op c → c.toNat = word) :
    FormatOutcome c (requireZero (c.extractLsb' (reservedFrom op) (27 - reservedFrom op)) i) := by
  subst hop
  have hle : (opField c).toNat < opcodeTable.length := by
    by_contra h
    rw [List.getElem?_eq_none (Nat.le_of_not_lt h)] at hname
    cases hname
  unfold requireZero
  split
  · rename_i hbits
    exact .command i (Nat.le_of_lt_succ hle) hbits (BitVec.eq_of_toNat_eq (hencode.trans (hword hbits).symm)) hname
  · rename_i hbits
    exact .reservedBits (Nat.le_of_lt_succ hle) hbits

theorem decodeFormat_outcome (c : Word) : FormatOutcome c (decodeFormat c) := by
  unfold decodeFormat
  split <;> rename_i hop
  · exact formatOutcome_requireZero 0x00 hop rfl EncodedWord.nop fun hz => (formatN_iff 0x00).2 ⟨hop, hz⟩
  · exact formatOutcome_requireZero 0x01 hop rfl EncodedWord.encode fun hz => (formatN_iff 0x01).2 ⟨hop, hz⟩
  · exact formatOutcome_requireZero 0x02 hop rfl EncodedWord.decode fun hz => (formatN_iff 0x02).2 ⟨hop, hz⟩
  · exact formatOutcome_requireZero 0x03 hop rfl EncodedWord.check fun hz => (formatN_iff 0x03).2 ⟨hop, hz⟩
  · exact formatOutcome_requireZero 0x04 hop rfl (EncodedWord.lrc _) fun hz =>
      (formatR_iff 0x04).2 ⟨hop, hz, bufOfBit_eq_iff.1 rfl⟩
  · exact formatOutcome_requireZero 0x05 hop rfl (EncodedWord.verify _) fun hz =>
      (formatR_iff 0x05).2 ⟨hop, hz, bufOfBit_eq_iff.1 rfl⟩
  · exact formatOutcome_requireZero 0x06 hop rfl EncodedWord.bcdenc fun hz => (formatN_iff 0x06).2 ⟨hop, hz⟩
  · exact formatOutcome_requireZero 0x07 hop rfl EncodedWord.bcddec fun hz => (formatN_iff 0x07).2 ⟨hop, hz⟩
  · exact formatOutcome_requireZero 0x08 hop rfl (EncodedWord.bcdst _) fun hz =>
      (formatA_iff 0x08).2 ⟨hop, hz, rfl⟩
  · exact formatOutcome_requireZero 0x09 hop rfl (EncodedWord.bcdld _) fun hz =>
      (formatA_iff 0x09).2 ⟨hop, hz, rfl⟩
  · exact formatOutcome_requireZero 0x0A hop rfl (EncodedWord.numenc _ _ _) fun hz =>
      (formatW_iff 0x0A).2 ⟨hop, hz, srcOfBit_eq_iff.1 rfl, rfl, rfl⟩
  · exact formatOutcome_requireZero 0x0B hop rfl (EncodedWord.numdec _ _) fun hz =>
      (formatW_reserved_iff 0x0B).2 ⟨hop, hz, rfl, rfl⟩
  · exact formatOutcome_requireZero 0x0C hop rfl (EncodedWord.minor _ _) fun hz =>
      (formatS_iff 0x0C).2 ⟨hop, hz, rmodeOfBit_eq_iff.1 rfl, rfl⟩
  · exact formatOutcome_requireZero 0x0D hop rfl (EncodedWord.pad _ _ _ _) fun hz =>
      (formatP_iff 0x0D).2 ⟨hop, hz, rjustOfBit_eq_iff.1 rfl, padzOfBit_eq_iff.1 rfl, rfl, rfl⟩
  · exact formatOutcome_requireZero 0x0E hop rfl (EncodedWord.fldlen _ _) fun hz =>
      (formatF_iff 0x0E).2 ⟨hop, hz, rfl, rfl⟩
  · exact formatOutcome_requireZero 0x0F hop rfl (EncodedWord.dateenc _) fun hz =>
      (formatA_iff 0x0F).2 ⟨hop, hz, rfl⟩
  · exact formatOutcome_requireZero 0x10 hop rfl (EncodedWord.datedec _) fun hz =>
      (formatA_iff 0x10).2 ⟨hop, hz, rfl⟩
  · exact formatOutcome_requireZero 0x11 hop rfl EncodedWord.tlvnext fun hz => (formatN_iff 0x11).2 ⟨hop, hz⟩
  · exact .reservedOpcode (by simp only [imp_false] at *; omega)

theorem formatOutcome_ok {c : Word} {i : Instr} (h : decodeFormat c = .ok i) : FormatOutcome c (.ok i) :=
  h ▸ decodeFormat_outcome c

theorem decodeFormat_eq_ok_iff {c : Word} {i : Instr} : decodeFormat c = .ok i ↔ encode i = c := by
  refine ⟨fun h => ?_, fun h => h ▸ decodeFormat_encode i⟩
  cases formatOutcome_ok h with
  | command _ _ _ henc _ => exact henc

theorem decodeFormat_eq_reservedOpcode_iff {c : Word} :
    decodeFormat c = .error .reservedOpcode ↔ 0x12 ≤ (opField c).toNat := by
  have h := decodeFormat_outcome c
  generalize decodeFormat c = r at h
  cases h with
  | reservedOpcode hop => exact iff_of_true rfl hop
  | reservedBits hop _ => exact iff_of_false (by simp) (by omega)
  | command _ hop _ _ _ => exact iff_of_false (by simp) (by omega)

theorem decodeFormat_eq_reservedBits_iff {c : Word} :
    decodeFormat c = .error .reservedBits ↔ (opField c).toNat ≤ 0x11 ∧ ¬ ReservedZero (opField c).toNat c := by
  have h := decodeFormat_outcome c
  generalize decodeFormat c = r at h
  cases h with
  | reservedOpcode hop => exact iff_of_false (by simp) fun h => absurd h.1 (by omega)
  | reservedBits hop hbits => exact iff_of_true rfl ⟨hop, hbits⟩
  | command _ hop hbits _ _ => exact iff_of_false (by simp) fun h => h.2 hbits

/-! ## The check of the field values -/

theorem requireLegal_eq_ok_iff {r : Except IllegalWord Instr} {i : Instr} :
    requireLegal r = .ok i ↔ r = .ok i ∧ WellFormed i := by
  unfold requireLegal
  split
  · split <;> grind
  · simp

theorem requireLegal_eq_error_iff {r : Except IllegalWord Instr} {e : IllegalWord} (he : e ≠ .fieldValue) :
    requireLegal r = .error e ↔ r = .error e := by
  unfold requireLegal
  split
  · split <;> simp [he.symm]
  · simp

/-- A word is a command exactly when it is the encoding of that command and the field values are legal. -/
theorem decode_eq_ok_iff {c : Word} {i : Instr} : decode c = .ok i ↔ encode i = c ∧ WellFormed i := by
  rw [decode, requireLegal_eq_ok_iff, decodeFormat_eq_ok_iff]

theorem decode_eq_reservedOpcode_iff {c : Word} :
    decode c = .error .reservedOpcode ↔ 0x12 ≤ (opField c).toNat := by
  rw [decode, requireLegal_eq_error_iff (by decide), decodeFormat_eq_reservedOpcode_iff]

theorem decode_eq_reservedBits_iff {c : Word} :
    decode c = .error .reservedBits ↔ (opField c).toNat ≤ 0x11 ∧ ¬ ReservedZero (opField c).toNat c := by
  rw [decode, requireLegal_eq_error_iff (by decide), decodeFormat_eq_reservedBits_iff]

/-- A word whose fields are those of an ill-formed command. -/
theorem decode_eq_fieldValue {c : Word} {i : Instr} {word : Nat} (hencode : (encode i).toNat = word)
    (hword : c.toNat = word) (h : ¬ WellFormed i) : decode c = .error .fieldValue := by
  rw [← BitVec.eq_of_toNat_eq (hencode.trans hword.symm), decode, decodeFormat_encode]
  exact if_neg h

/-- The completion of an illegal word raises ILLEGAL_CMD, whatever its opcode (R95, R96, R97). -/
theorem completeInFlight_illegal {s : State} {e : IllegalWord} (h : decode s.cmd = .error e) :
    completeInFlight s = .next (s.raise .illegalCmd) := by
  unfold completeInFlight
  rw [h]

/-! ## The opcode map -/

theorem opcodeTable_getElem?_op : ∀ r ∈ opcodeTable, opcodeTable[r.op]? = some r := by decide

theorem opcodeTable_op_le : ∀ r ∈ opcodeTable, r.op ≤ 0x11 := by decide

theorem exists_row_op : ∀ op ≤ 0x11, ∃ r ∈ opcodeTable, r.op = op := by decide

/-- The match of a row is its opcode in place, and the mask is every bit from the format's fields up (R94). -/
theorem opcodeTable_matchBits_maskBits : ∀ r ∈ opcodeTable,
    r.matchBits = BitVec.ofNat 32 (r.op * 2 ^ 27) ∧ r.maskBits = BitVec.allOnes 32 <<< reservedFrom r.op := by decide

theorem reservedFrom_le (op : Nat) : reservedFrom op ≤ 27 := by
  unfold reservedFrom
  split <;> decide

/-- Masking off the low `k` bits leaves the opcode alone exactly when the bits between are 0. -/
theorem and_mask_iff {c : Word} {op k : Nat} (hop : op < 2 ^ 5) (hk : k ≤ 27) :
    c &&& BitVec.allOnes 32 <<< k = BitVec.ofNat 32 (op * 2 ^ 27) ↔
      (opField c).toNat = op ∧ c.extractLsb' k (27 - k) = 0 := by
  have hpow : 2 ^ 27 = 2 ^ k * 2 ^ (27 - k) := by rw [← pow_add, Nat.add_sub_cancel' hk]
  have hhigh : (c &&& BitVec.allOnes 32 <<< k).toNat = 2 ^ k * (c.toNat / 2 ^ k) := by
    have hle : c.toNat / 2 ^ k * 2 ^ k < 2 ^ 32 := Nat.lt_of_le_of_lt (Nat.div_mul_le_self _ _) c.isLt
    rw [← BitVec.shiftLeft_ushiftRight, BitVec.toNat_shiftLeft, BitVec.toNat_ushiftRight, Nat.shiftLeft_eq,
      Nat.shiftRight_eq_div_pow, Nat.mod_eq_of_lt hle, Nat.mul_comm]
  have hmatch : (BitVec.ofNat 32 (op * 2 ^ 27)).toNat = 2 ^ k * (op * 2 ^ (27 - k)) := by
    rw [BitVec.toNat_ofNat, Nat.mod_eq_of_lt (by omega), hpow, Nat.mul_left_comm]
  rw [← BitVec.toNat_inj, hhigh, hmatch, Nat.mul_right_inj (by simp), extractLsb'_eq_zero_iff, opField_toNat, hpow,
    ← Nat.div_div_eq_div_mul, Nat.div_mod_unique (Nat.two_pow_pos _), Nat.zero_add, Nat.mul_comm op, eq_comm,
    and_iff_left (Nat.two_pow_pos _)]

/-- A row selects the words of its opcode whose reserved bits are 0 (R94, R95). -/
theorem selects_iff {r : OpcodeRow} (hr : r ∈ opcodeTable) {c : Word} :
    r.selects c ↔ (opField c).toNat = r.op ∧ ReservedZero r.op c := by
  obtain ⟨hmatch, hmask⟩ := opcodeTable_matchBits_maskBits r hr
  have hop : r.op < 2 ^ 5 := Nat.lt_of_le_of_lt (opcodeTable_op_le r hr) (by decide)
  rw [OpcodeRow.selects, hmatch, hmask, and_mask_iff hop (reservedFrom_le r.op)]

theorem exists_row_selects_iff {c : Word} :
    (∃ r ∈ opcodeTable, r.selects c) ↔ (opField c).toNat ≤ 0x11 ∧ ReservedZero (opField c).toNat c := by
  constructor
  · rintro ⟨r, hr, hsel⟩
    obtain ⟨hop, hbits⟩ := (selects_iff hr).1 hsel
    exact hop ▸ ⟨opcodeTable_op_le r hr, hbits⟩
  · rintro ⟨hop, hbits⟩
    obtain ⟨r, hr, hrow⟩ := exists_row_op _ hop
    exact ⟨r, hr, (selects_iff hr).2 ⟨hrow.symm, hrow ▸ hbits⟩⟩

theorem no_row_selects_iff {c : Word} : (∀ r ∈ opcodeTable, ¬ r.selects c) ↔
    ¬ ((opField c).toNat ≤ 0x11 ∧ ReservedZero (opField c).toNat c) := by
  rw [← exists_row_selects_iff]
  simp only [not_exists, not_and]

theorem row_of_selects {r q : OpcodeRow} {c : Word} (hr : r ∈ opcodeTable) (hq : q ∈ opcodeTable)
    (hrc : r.selects c) (hqc : q.selects c) : r = q := by
  have hop : r.op = q.op := ((selects_iff hr).1 hrc).1.symm.trans ((selects_iff hq).1 hqc).1
  exact Option.some.inj (by rw [← opcodeTable_getElem?_op r hr, hop, opcodeTable_getElem?_op q hq])

/-- The row that selects a command's own word bears the command's mnemonic. -/
theorem exists_row_selects_encode (i : Instr) :
    ∃ r ∈ opcodeTable, r.selects (encode i) ∧ r.mnemonic = mnemonicOf i := by
  cases formatOutcome_ok (decodeFormat_encode i) with
  | command _ hop hbits _ hname =>
    obtain ⟨r, hr, hsel⟩ := exists_row_selects_iff.2 ⟨hop, hbits⟩
    rw [((selects_iff hr).1 hsel).1, opcodeTable_getElem?_op r hr] at hname
    exact ⟨r, hr, hsel, Option.some.inj hname⟩

/-! ## The statements -/

/-- Settles O1: the encoding of a well-formed command decodes to that command alone. -/
theorem decodeOfEncodeIsTheCommand : Obligations.DecodeOfEncodeIsTheCommand :=
  fun _ hlegal => decode_eq_ok_iff.2 ⟨rfl, hlegal⟩

/-- Settles O2: the same equivalence, read from the word. -/
theorem encodeOfDecodeIsTheWord : Obligations.EncodeOfDecodeIsTheWord :=
  fun _ _ hdecode => decode_eq_ok_iff.1 hdecode

/-- Settles O3: a row selects the words of its own opcode with no reserved bit. -/
theorem decoderFollowsTheOpcodeMap : Obligations.DecoderFollowsTheOpcodeMap := by
  refine ⟨fun c r q hr hq hrc hqc => row_of_selects hr hq hrc hqc, fun c i hdecode => ?_, fun c => ?_⟩
  · obtain ⟨rfl, -⟩ := decode_eq_ok_iff.1 hdecode
    exact exists_row_selects_encode i
  · rw [no_row_selects_iff, decode_eq_reservedOpcode_iff, decode_eq_reservedBits_iff]
    have hop : 0x12 ≤ (opField c).toNat ↔ ¬ (opField c).toNat ≤ 0x11 := Nat.not_le.symm
    tauto

/-- Settles O5: the opcode, the reserved bits and the fields of the word are those of its row, whose command is
ill-formed. -/
theorem illegalWordsEndInIllegalCmd : Obligations.IllegalWordsEndInIllegalCmd := by
  refine ⟨fun c hop => decode_eq_reservedOpcode_iff.2 hop, fun c hop hrow => ?_, fun c hsel hw => ?_,
    fun c hsel hn => ?_, fun c hsel hw => ?_, fun s e hdecode => ?_⟩
  · exact decode_eq_reservedBits_iff.2 ⟨hop, fun hbits => no_row_selects_iff.1 hrow ⟨hop, hbits⟩⟩
  · have hillegal : ¬ numWidthLegal (width5Field c) := by
      unfold width5Field
      omega
    rcases hsel with hsel | hsel
    · obtain ⟨hop, hbits⟩ := (selects_iff (r := ⟨0x0A, "NUMENC", 0x50000000, 0xFFF00000⟩) (by decide)).1 hsel
      exact decode_eq_fieldValue (EncodedWord.numenc _ _ _)
        ((formatW_iff 0x0A).2 ⟨hop, hbits, srcOfBit_eq_iff.1 rfl, rfl, rfl⟩) (mt of_decide_eq_true hillegal)
    · obtain ⟨hop, hbits⟩ := (selects_iff (r := ⟨0x0B, "NUMDEC", 0x58000000, 0xFFF80000⟩) (by decide)).1 hsel
      exact decode_eq_fieldValue (EncodedWord.numdec _ _)
        ((formatW_reserved_iff 0x0B).2 ⟨hop, hbits, rfl, rfl⟩) (mt of_decide_eq_true hillegal)
  · have hillegal : ¬ scaleLegal (scaleField c) := Nat.not_le_of_lt hn
    obtain ⟨hop, hbits⟩ := (selects_iff (r := ⟨0x0C, "MINOR", 0x60000000, 0xFFFFFFC0⟩) (by decide)).1 hsel
    exact decode_eq_fieldValue (EncodedWord.minor _ _)
      ((formatS_iff 0x0C).2 ⟨hop, hbits, rmodeOfBit_eq_iff.1 rfl, rfl⟩) (mt of_decide_eq_true hillegal)
  · have hillegal : ¬ fieldWidthLegal (width8Field c) := by
      unfold width8Field
      omega
    rcases hsel with hsel | hsel
    · obtain ⟨hop, hbits⟩ := (selects_iff (r := ⟨0x0D, "PAD", 0x68000000, 0xFF000000⟩) (by decide)).1 hsel
      exact decode_eq_fieldValue (EncodedWord.pad _ _ _ _)
        ((formatP_iff 0x0D).2 ⟨hop, hbits, rjustOfBit_eq_iff.1 rfl, padzOfBit_eq_iff.1 rfl, rfl, rfl⟩)
        (mt of_decide_eq_true hillegal)
    · obtain ⟨hop, hbits⟩ := (selects_iff (r := ⟨0x0E, "FLDLEN", 0x70000000, 0xFFC00000⟩) (by decide)).1 hsel
      exact decode_eq_fieldValue (EncodedWord.fldlen _ _) ((formatF_iff 0x0E).2 ⟨hop, hbits, rfl, rfl⟩)
        (mt of_decide_eq_true hillegal)
  · exact completeInFlight_illegal hdecode

/-- Settles O4: each command is legal, and each word is its encoding. -/
theorem specWordsDecode : Obligations.SpecWordsDecode := by
  unfold Obligations.SpecWordsDecode
  simp only [decode_eq_ok_iff]
  decide

end Sys2Proof
end

section
/-! PROOFS. What ENCODE writes, what DECODE, CHECK and VERIFY answer about a frame, and the checksum of a frame with a
flipped bit; the statements of 40_frame_codec.md that follow (spec/40_frame_codec.md R120 to R138). -/

namespace Sys2Proof.Machine

open Sys2Proof.Laws

/-- A number that fits a register is the register's value. -/
theorem toNat_ofNat_of_lt {w k : Nat} (h : k < 2 ^ w) : (BitVec.ofNat w k).toNat = k := by
  rw [BitVec.toNat_ofNat, Nat.mod_eq_of_lt h]

/-! ## ENCODE -/

@[simp] theorem frameBody_length (payload : List Byte) : (frameBody payload).length = payload.length + 3 := by
  simp [frameBody]

@[simp] theorem frameOf_length (payload : List Byte) : (frameOf payload).length = payload.length + 5 := by
  simp [frameOf]

/-- The payload that ENCODE frames, PBUF[0..PLEN) (40_frame_codec.md R122). -/
def State.payload (s : State) : List Byte := s.readBytes .pbuf 0 s.plen.toNat

@[simp] theorem payload_length (s : State) : s.payload.length = s.plen.toNat := readBytes_length ..

@[simp] theorem payload_getElem (s : State) (k : Nat) (h : k < s.payload.length) :
    s.payload[k] = s.readByte .pbuf k := by
  simp [State.payload]

/-- The state of a successful ENCODE before its completion: FBUF, FLEN and RES written (40_frame_codec.md R122). -/
def State.encoded (s : State) : State :=
  State.setRes { s.writeBytes .fbuf 0 (frameOf s.payload) with flen := BitVec.ofNat 16 (s.plen.toNat + 5) }
    ((xorBytes (frameBody s.payload)).setWidth 64)

theorem exec_encode {s : State} (h : s.plen.toNat ≤ 9999) :
    exec .encode s = .next (s.encoded.succeed { ok := true }) := by
  have hres : encodeResult s = .ok ({ ok := true }, s.encoded) := if_neg (Nat.not_lt.2 h)
  rw [exec_eq_commit, pseudocode, hres, if_neg (by decide), State.commit_ok]

theorem exec_encode_tooLarge {s : State} (h : 9999 < s.plen.toNat) :
    exec .encode s = .next (s.raise .payloadTooLarge) := by
  have hres : encodeResult s = .error .payloadTooLarge := if_pos h
  rw [exec_eq_commit, pseudocode, hres, if_neg (by decide), State.commit_error]

theorem encoded_flen {s : State} (h : s.plen.toNat ≤ 9999) : s.encoded.flen.toNat = s.plen.toNat + 5 :=
  toNat_ofNat_of_lt (by omega)

theorem encoded_res (s : State) : s.encoded.res = (xorBytes (frameBody s.payload)).setWidth 64 :=
  State.res_setRes ..

/-- ENCODE writes FBUF[0..PLEN + 5) (40_frame_codec.md R122). -/
theorem encoded_readByte (s : State) (k : Nat) :
    s.encoded.readByte .fbuf k =
      if h : k < s.plen.toNat + 5 then (frameOf s.payload)[k]'(by simpa) else s.readByte .fbuf k :=
  (readByte_writeBytes s .fbuf 0 (frameOf s.payload) k).trans (by simp)

theorem encoded_readByte_beyond {s : State} {k : Nat} (h : s.plen.toNat + 5 ≤ k) :
    s.encoded.readByte .fbuf k = s.readByte .fbuf k := by
  rw [encoded_readByte, dif_neg (Nat.not_lt.2 h)]

theorem encoded_start (s : State) : s.encoded.readByte .fbuf 0 = Config.stx := by
  simp [encoded_readByte, frameOf]

/-- FBUF[1..PLEN + 4) holds the body of the frame (40_frame_codec.md R121). -/
theorem encoded_body (s : State) (k : Nat) (h : k < s.plen.toNat + 3) :
    s.encoded.readByte .fbuf (k + 1) = (frameBody s.payload)[k]'(by simpa) := by
  rw [encoded_readByte, dif_pos (by omega)]
  simp [frameOf, h]

theorem encoded_payload {s : State} {k : Nat} (h : k < s.plen.toNat) :
    s.encoded.readByte .fbuf (3 + k) = s.readByte .pbuf k := by
  rw [show 3 + k = k + 2 + 1 by omega, encoded_body s (k + 2) (by omega)]
  simp [frameBody, h]

theorem encoded_finish (s : State) : s.encoded.readByte .fbuf (s.plen.toNat + 3) = Config.etx := by
  rw [encoded_body s (s.plen.toNat + 2) (by omega)]
  simp [frameBody]

theorem encoded_checksum (s : State) :
    s.encoded.readByte .fbuf (s.plen.toNat + 4) = xorBytes (frameBody s.payload) := by
  rw [encoded_readByte, dif_pos (by omega)]
  simp [frameOf]

theorem encoded_readBytes_body (s : State) : s.encoded.readBytes .fbuf 1 (s.plen.toNat + 3) = frameBody s.payload := by
  refine List.ext_getElem (by simp) fun k h _ => ?_
  rw [readBytes_length] at h
  rw [readBytes_getElem, Nat.add_comm, encoded_body s k h]

/-- A frame is valid as ENCODE leaves it (40_frame_codec.md R121, R129). -/
theorem frameOk_encoded (s : State) : s.encoded.frameOk (s.plen.toNat + 5) = true := by
  have hbody : s.encoded.frameLrc (s.plen.toNat + 5) = xorBytes (frameBody s.payload) :=
    congrArg xorBytes (encoded_readBytes_body s)
  have hlast : s.encoded.readByte .fbuf (s.plen.toNat + 5 - 1) = _ := encoded_checksum s
  rw [State.frameOk, hbody, hlast, beq_self_eq_true]

/-- ENCODE leaves a frame of a legal length with a valid checksum (40_frame_codec.md R122, R123). -/
theorem exec_encode_frameOk {s t : State} (hp : s.plen.toNat ≤ 9999) (h : exec .encode s = .next t) :
    5 ≤ t.flen.toNat ∧ t.flen.toNat ≤ 16384 ∧ t.frameOk t.flen.toNat = true := by
  rw [exec_encode hp] at h
  obtain rfl := Host.Outcome.next.inj h
  rw [State.succeed_flen, encoded_flen hp]
  exact ⟨by omega, by omega, frameOk_encoded s⟩

/-! ## DECODE and CHECK -/

theorem checkFlen_bounds {n : Nat} (h : 16384 < n) (r : Flags × State) : checkFlen n r = .error .bounds := if_pos h

theorem checkFlen_runt {n : Nat} (h : n < 5) (r : Flags × State) : checkFlen n r = .error .runtFrame := by
  rw [checkFlen, if_neg (show ¬ 16384 < n by omega), if_pos h]

theorem checkFlen_ok {n : Nat} (h₁ : 5 ≤ n) (h₂ : n ≤ 16384) (r : Flags × State) : checkFlen n r = .ok r := by
  rw [checkFlen, if_neg (Nat.not_lt.2 h₂), if_neg (Nat.not_lt.2 h₁)]

/-- The state of a successful DECODE of n bytes before its completion: CHECK's, with PBUF and PLEN written
(40_frame_codec.md R127, R135). -/
def State.decoded (s : State) (n : Nat) : State :=
  { (s.judgeFrame n).writeBytes .pbuf 0 (s.readBytes .fbuf 3 (n - 5)) with plen := BitVec.ofNat 16 (n - 5) }

/-- The state of a command that judges the frame, before its completion (40_frame_codec.md R135). -/
def State.judged (i : Instr) (s : State) (n : Nat) : State := if i = .decode then s.decoded n else s.judgeFrame n

/-- DECODE and CHECK check FLEN alike, and end alike (40_frame_codec.md R127, R135). -/
theorem exec_judgesFrame {i : Instr} (hi : JudgesFrame i) (s : State) :
    exec i s = .next (s.commitJudged
      (checkFlen s.flen.toNat (s.frameFlags s.flen.toNat, s.judged i s.flen.toNat))) := by
  rcases hi with rfl | rfl <;> rfl

theorem exec_judgesFrame_ok {i : Instr} (hi : JudgesFrame i) {s : State} {n : Nat} (hn : s.flen.toNat = n)
    (h₁ : 5 ≤ n) (h₂ : n ≤ 16384) : exec i s = .next ((s.judged i n).succeed (s.frameFlags n)) := by
  rw [exec_judgesFrame hi, hn, checkFlen_ok h₁ h₂, State.commitJudged_ok]

theorem judged_reply {i : Instr} (hi : JudgesFrame i) (s : State) (n : Nat) :
    (s.judged i n).reply = verdict (s.frameOk n) := by
  rcases hi with rfl | rfl <;> rfl

/-- DECODE and CHECK succeed with OK and REPLY by the checksum alone (40_frame_codec.md R129, R134). -/
theorem exec_judgesFrame_verdict {i : Instr} (hi : JudgesFrame i) {s : State} {n : Nat} (hn : s.flen.toNat = n)
    (h₁ : 5 ≤ n) (h₂ : n ≤ 16384) : ∃ v : State, exec i s = .next v ∧ v.errcode = .none ∧
      v.flags.ok = s.frameOk n ∧ v.reply = verdict (s.frameOk n) :=
  ⟨_, exec_judgesFrame_ok hi hn h₁ h₂, rfl, rfl, judged_reply hi s n⟩

@[simp] theorem judgeFrame_readByte (s : State) (n : Nat) (b : Buf) (k : Nat) :
    (s.judgeFrame n).readByte b k = s.readByte b k := by
  cases b <;> rfl

/-- The bytes of PBUF after DECODE: the payload, and above it what stood there (40_frame_codec.md R127, R132). -/
theorem decoded_readByte (s : State) (n k : Nat) :
    (s.decoded n).readByte .pbuf k = if k < n - 5 then s.readByte .fbuf (3 + k) else s.readByte .pbuf k :=
  (readByte_writeBytes (s.judgeFrame n) .pbuf 0 (s.readBytes .fbuf 3 (n - 5)) k).trans (by simp)

theorem judgeFrame_res (s : State) (n : Nat) :
    (s.judgeFrame n).res = (s.readByte .fbuf (n - 1) ++ s.frameLrc n).setWidth 64 :=
  State.res_setRes ..

theorem bcdValue_le (r : BitVec 16) : (bcdValue r).2 ≤ 9999 := by
  unfold bcdValue
  split
  · exact Nat.zero_le _
  · simp only
    omega

/-- VALUE and RAW of LENFIELD, as a number (10_state.md R31). -/
theorem judgeFrame_lenfield_toNat (s : State) (n : Nat) :
    (s.judgeFrame n).lenfield.toNat = 65536 * (bcdValue s.frameLen).2 + s.frameLen.toNat := by
  have hvalue := bcdValue_le s.frameLen
  have happend := toNat_append_add (BitVec.ofNat 16 (bcdValue s.frameLen).2) s.frameLen
  rw [toNat_ofNat_of_lt (by omega)] at happend
  exact happend.trans (by omega)

/-- The received checksum above the computed one, as a number (40_frame_codec.md R127). -/
theorem judgeFrame_res_toNat (s : State) (n : Nat) :
    (s.judgeFrame n).res.toNat = 256 * (s.readByte .fbuf (n - 1)).toNat + (s.frameLrc n).toNat := by
  rw [judgeFrame_res, BitVec.toNat_setWidth_of_le (by omega), toNat_append_add]
  omega

theorem verdict_eq_ack_iff {ok : Bool} : verdict ok = 0x06 ↔ ok = true := by cases ok <;> decide

theorem verdict_eq_nak_iff {ok : Bool} : verdict ok = 0x15 ↔ ok ≠ true := by cases ok <;> decide

/-! ## Flipped bits -/

/-- Changing one byte of a string by a mask changes its checksum by the mask (40_frame_codec.md R138). -/
theorem xorBytes_set (bytes : List Byte) (k : Nat) (h : k < bytes.length) (mask : Byte) :
    xorBytes (bytes.set k (bytes[k] ^^^ mask)) = xorBytes bytes ^^^ mask := by
  induction bytes generalizing k with
  | nil => simp at h
  | cons b rest ih =>
    cases k with
    | zero => simp [xorBytes_cons, BitVec.xor_assoc, BitVec.xor_comm mask]
    | succ k => simp [xorBytes_cons, BitVec.xor_assoc, ih k (by simpa using h)]

/-- The block with one bit of FBUF flipped (40_frame_codec.md R138). -/
def State.flipBit (s : State) (j bit : Nat) : State :=
  s.writeBytes .fbuf j [s.readByte .fbuf j ^^^ BitVec.twoPow 8 bit]

@[simp] theorem flipBit_flen (s : State) (j bit : Nat) : (s.flipBit j bit).flen = s.flen :=
  State.writeBytes_flen ..

theorem flipBit_readByte_same (s : State) (j bit : Nat) :
    (s.flipBit j bit).readByte .fbuf j = s.readByte .fbuf j ^^^ BitVec.twoPow 8 bit := by
  simp [State.flipBit, readByte_writeBytes]

theorem flipBit_readByte_ne (s : State) {j k : Nat} (h : k ≠ j) (bit : Nat) :
    (s.flipBit j bit).readByte .fbuf k = s.readByte .fbuf k := by
  rw [State.flipBit, readByte_writeBytes, dif_neg (by simp; omega)]

theorem flipBit_readBytes (s : State) (bit a n k : Nat) :
    (s.flipBit (a + k) bit).readBytes .fbuf a n =
      (s.readBytes .fbuf a n).set k (s.readByte .fbuf (a + k) ^^^ BitVec.twoPow 8 bit) := by
  refine List.ext_getElem (by simp) fun i _ _ => ?_
  rw [readBytes_getElem, List.getElem_set, readBytes_getElem]
  by_cases hi : k = i
  · rw [if_pos hi, ← hi, flipBit_readByte_same]
  · rw [if_neg hi, flipBit_readByte_ne s (by omega)]

/-- A flip in FBUF[1..n-1) changes the frame checksum in that bit position (40_frame_codec.md R138). -/
theorem frameLrc_flipBit (s : State) {n j : Nat} (h₁ : 1 ≤ j) (h₂ : j < n - 1) (bit : Nat) :
    (s.flipBit j bit).frameLrc n = s.frameLrc n ^^^ BitVec.twoPow 8 bit := by
  obtain ⟨k, rfl⟩ := Nat.exists_eq_add_of_le h₁
  have hset := xorBytes_set (s.readBytes .fbuf 1 (n - 2)) k (by simp; omega) (BitVec.twoPow 8 bit)
  rw [readBytes_getElem] at hset
  rw [State.frameLrc, flipBit_readBytes s bit 1 (n - 2) k, hset, State.frameLrc]

/-- A flip in FBUF[1..n-1) leaves the checksum byte alone. -/
theorem flipBit_readByte_last (s : State) {n j : Nat} (h : j < n - 1) (bit : Nat) :
    (s.flipBit j bit).readByte .fbuf (n - 1) = s.readByte .fbuf (n - 1) :=
  flipBit_readByte_ne s (by omega) bit

/-- One flipped bit makes a valid frame invalid (40_frame_codec.md R138). -/
theorem frameOk_flipBit {s : State} {n j bit : Nat} (hok : s.frameOk n = true) (h₁ : 1 ≤ j) (h₂ : j < n - 1)
    (hbit : bit < 8) : (s.flipBit j bit).frameOk n = false := by
  have hmask : BitVec.twoPow 8 bit ≠ 0#8 := fun h => by
    have hbit' := congrArg (BitVec.getLsbD · bit) h
    simp [hbit] at hbit'
  rw [State.frameOk, beq_iff_eq] at hok
  rw [State.frameOk, frameLrc_flipBit s h₁ h₂, flipBit_readByte_last s h₂, hok]
  simpa using hmask

/-- A second flip in the same bit position cancels the first (40_frame_codec.md R138). -/
theorem frameOk_flipBit_flipBit (s : State) {n j l : Nat} (hj₁ : 1 ≤ j) (hj₂ : j < n - 1) (hl₁ : 1 ≤ l)
    (hl₂ : l < n - 1) (bit : Nat) : ((s.flipBit j bit).flipBit l bit).frameOk n = s.frameOk n := by
  simp only [State.frameOk, frameLrc_flipBit _ hl₁ hl₂, frameLrc_flipBit _ hj₁ hj₂, flipBit_readByte_last _ hl₂,
    flipBit_readByte_last _ hj₂, BitVec.xor_assoc, BitVec.xor_self, BitVec.xor_zero]

/-! ## VERIFY of a frame -/

/-- The block with the operands that make VERIFY check a frame of n bytes against a checksum byte
(42_checksum.md R175). -/
def State.verifying (s : State) (n : Nat) (x : Byte) : State :=
  { s with opb := BitVec.ofNat 16 (n - 2) ++ 1#16, opaHi := 0, opaLo := x.setWidth 32 }

theorem verifying_opbLow (s : State) (n : Nat) (x : Byte) : (s.verifying n x).opbLow = 1#16 :=
  BitVec.extractLsb'_append_eq_right

theorem verifying_opbHigh (s : State) (n : Nat) (x : Byte) : (s.verifying n x).opbHigh = BitVec.ofNat 16 (n - 2) :=
  BitVec.extractLsb'_append_eq_left

theorem verifying_opa (s : State) (n : Nat) (x : Byte) : (s.verifying n x).opa = x.setWidth 64 := by
  have hlow : (s.verifying n x).opa.toNat = (x.setWidth 32).toNat := toNat_zero_append (m := 32) _
  have hnarrow : (x.setWidth 32).toNat = x.toNat := BitVec.toNat_setWidth_of_le (by omega)
  have hwide : (x.setWidth 64).toNat = x.toNat := BitVec.toNat_setWidth_of_le (by omega)
  exact BitVec.eq_of_toNat_eq (hlow.trans (hnarrow.trans hwide.symm))

/-- VERIFY of a frame against its last byte gives the OK that CHECK gives (42_checksum.md R175). -/
theorem exec_verify_frame (s : State) {n : Nat} (h₁ : 2 ≤ n) (h₂ : n ≤ 16384) {x : Byte}
    (hx : s.readByte .fbuf (n - 1) = x) :
    ∃ v : State, exec (.verify .fbuf) (s.verifying n x) = .next v ∧ v.errcode = .none ∧ v.flags.ok = s.frameOk n := by
  have hstart : (s.verifying n x).opbLow.toNat = 1 := by rw [verifying_opbLow]; rfl
  have hcount : (s.verifying n x).opbHigh.toNat = n - 2 := by
    rw [verifying_opbHigh, toNat_ofNat_of_lt (by omega)]
  have hbounds : inBounds 1 (n - 2) := show 1 + (n - 2) ≤ 16384 by omega
  have hlrc : (s.verifying n x).rangeLrc .fbuf = s.frameLrc n := by
    rw [State.rangeLrc, hstart, hcount]
    rfl
  have hbyte : ¬ (s.verifying n x).opa.toNat > 0xFF := by
    rw [verifying_opa, BitVec.toNat_setWidth_of_le (by omega)]
    exact Nat.not_lt.2 (Nat.le_of_lt_succ x.isLt)
  have hres : verifyResult .fbuf (s.verifying n x) =
      .ok ({ ok := s.frameOk n }, (s.verifying n x).setRes ((s.frameLrc n).setWidth 64)) := by
    rw [verifyResult, hstart, hcount, if_neg (not_not.2 hbounds), if_neg hbyte, hlrc, verifying_opa,
      BitVec.extractLsb'_setWidth_of_le (by decide), BitVec.extractLsb'_eq_self, State.frameOk, hx]
  rw [exec_eq_commit, pseudocode, hres, if_neg (by decide), State.commit_ok]
  exact ⟨_, rfl, rfl, rfl⟩

/-! ## The statements -/

/-- Settles O28: NOP's result is the state as it was. -/
theorem nopOnlyCompletes : Obligations.NopOnlyCompletes := ⟨decode_eq_ok_iff.2 ⟨rfl, rfl⟩, fun _ => rfl⟩

/-- Settles O29: FBUF holds the frame of the payload, read back byte by byte. -/
theorem encodeBuildsTheFrame : Obligations.EncodeBuildsTheFrame := by
  refine ⟨decode_eq_ok_iff.2 ⟨rfl, rfl⟩, fun s hp => ?_, fun s hp => exec_encode_tooLarge hp⟩
  refine ⟨_, exec_encode hp, rfl, encoded_flen hp, ?_⟩
  simp only [readByte_succeed, readBytes_succeed, res_succeed]
  refine ⟨encoded_start s, ?_, ?_, fun k hk => encoded_payload hk, encoded_finish s, ?_, ?_,
    fun k hk => encoded_readByte_beyond hk⟩
  · rw [encoded_body s 0 (by omega)]
    simpa [frameBody] using toBcd_fst s.plen.toNat hp
  · rw [encoded_body s 1 (by omega)]
    simpa [frameBody] using toBcd_snd s.plen.toNat
  · rw [encoded_checksum, encoded_readBytes_body]
  · rw [encoded_checksum, encoded_res]

/-- Settles O32: the check of FLEN is shared, and its errors answer NAK. -/
theorem badFrameLengthIsAnError : Obligations.BadFrameLengthIsAnError := by
  intro s i hi
  rw [exec_judgesFrame (List.mem_pair.1 hi)]
  refine ⟨fun h => ?_, fun h => ?_⟩
  · rw [checkFlen_bounds h]
    rfl
  · rw [checkFlen_runt h]
    rfl

/-- Settles O31: in each outcome of the check of FLEN the two states differ in PBUF and PLEN alone. -/
theorem checkIsDecodeWithoutTheCopy : Obligations.CheckIsDecodeWithoutTheCopy := by
  refine ⟨decode_eq_ok_iff.2 ⟨rfl, rfl⟩, fun s => ?_⟩
  refine ⟨_, _, exec_judgesFrame (.inr rfl) s, exec_judgesFrame (.inl rfl) s, ?_⟩
  rcases Nat.lt_or_ge 16384 s.flen.toNat with h | h₂
  · rw [checkFlen_bounds h, checkFlen_bounds h]
    rfl
  · rcases Nat.lt_or_ge s.flen.toNat 5 with h | h₁
    · rw [checkFlen_runt h, checkFlen_runt h]
      rfl
    · rw [checkFlen_ok h₁ h₂, checkFlen_ok h₁ h₂]
      rfl

/-- Settles O30: a frame of legal length is judged, and its payload copied. -/
theorem decodeJudgesTheFrame : Obligations.DecodeJudgesTheFrame := by
  rintro s n x raw hn h₁ h₂ rfl rfl
  refine ⟨_, exec_judgesFrame_ok (.inl rfl) hn h₁ h₂, rfl, fun k hk => ?_, fun k hk => ?_, ?_,
    judgeFrame_lenfield_toNat s n, judgeFrame_res_toNat s n, ?_, ?_, ?_⟩
  · exact (decoded_readByte s n k).trans (if_pos hk)
  · exact (decoded_readByte s n k).trans (if_neg (Nat.not_lt.2 hk))
  · exact toNat_ofNat_of_lt (by omega)
  · simp only [Bool.decide_and, Bool.decide_eq_true]
    rfl
  · exact verdict_eq_ack_iff.trans beq_iff_eq
  · exact verdict_eq_nak_iff.trans (not_congr beq_iff_eq)

/-- Settles O34: each flip changes the frame checksum by the same mask, and the checksum byte stays. -/
theorem singleBitErrorsAreDetected : Obligations.SingleBitErrorsAreDetected := by
  rintro s t _ _ j bit hp hexec rfl hj₁ hj₂ hbit rfl
  obtain ⟨hmin, hmax, hok⟩ := exec_encode_frameOk hp hexec
  have hmin' : 2 ≤ t.flen.toNat := by omega
  have hlast := flipBit_readByte_last t hj₂ bit
  refine ⟨fun i hi => ?_, ?_, fun l hl₁ hl₂ _ i hi => ?_, fun l hl₁ hl₂ _ => ?_⟩
  · have hjudged := exec_judgesFrame_verdict (List.mem_pair.1 hi) (s := t.flipBit j bit) rfl hmin hmax
    rwa [flipBit_flen, frameOk_flipBit hok hj₁ hj₂ hbit] at hjudged
  · have hverified := exec_verify_frame (t.flipBit j bit) hmin' hmax hlast
    rwa [frameOk_flipBit hok hj₁ hj₂ hbit] at hverified
  · obtain ⟨v, hv, hnone, hflag, -⟩ := exec_judgesFrame_verdict (List.mem_pair.1 hi)
      (s := (t.flipBit j bit).flipBit l bit) rfl hmin hmax
    exact ⟨v, hv, hnone, hflag.trans ((frameOk_flipBit_flipBit t hj₁ hj₂ hl₁ hl₂ bit).trans hok)⟩
  · have hverified := exec_verify_frame ((t.flipBit j bit).flipBit l bit) hmin' hmax
      ((flipBit_readByte_last _ hl₂ bit).trans hlast)
    rwa [frameOk_flipBit_flipBit t hj₁ hj₂ hl₁ hl₂, hok] at hverified

end Sys2Proof.Machine
end

section
/-! PROOFS. The four digits of a packed value, the outcomes of BCDENC, BCDDEC, BCDST and BCDLD, and the statements of
41_bcd.md (spec/41_bcd.md R150 to R165). -/

namespace Sys2Proof.Machine

open Sys2Proof.Laws

/-! ## The four nibbles of a packed value -/

/-- The nibbles of `r` are d3, d2, d1 and d0, whether or not they are decimal digits (41_bcd.md R150). -/
structure PackedAs (r : BitVec 16) (d3 d2 d1 d0 : Nat) : Prop where
  toNat_eq : r.toNat = 4096 * d3 + 256 * d2 + 16 * d1 + d0
  nibbles : d3 < 16 ∧ d2 < 16 ∧ d1 < 16 ∧ d0 < 16

section
variable {r : BitVec 16} {d3 d2 d1 d0 : Nat}

theorem bcdNibble_of_packedAs (h : PackedAs r d3 d2 d1 d0) :
    bcdNibble r 3 = d3 ∧ bcdNibble r 2 = d2 ∧ bcdNibble r 1 = d1 ∧ bcdNibble r 0 = d0 := by
  obtain ⟨hr, hnibbles⟩ := h
  simp only [bcdNibble_eq, hr]
  omega

/-- FromBCD reads four decimal digits. -/
theorem bcdValue_of_digits (h : PackedAs r d3 d2 d1 d0) (hdigits : d3 ≤ 9 ∧ d2 ≤ 9 ∧ d1 ≤ 9 ∧ d0 ≤ 9) :
    bcdValue r = (true, 1000 * d3 + 100 * d2 + 10 * d1 + d0) := by
  obtain ⟨h3, h2, h1, h0⟩ := bcdNibble_of_packedAs h
  rw [bcdValue, h3, h2, h1, h0, if_neg (by omega)]

/-- FromBCD refuses a nibble above 9. -/
theorem bcdValue_of_not_digits (h : PackedAs r d3 d2 d1 d0) (hbad : 9 < d3 ∨ 9 < d2 ∨ 9 < d1 ∨ 9 < d0) :
    bcdValue r = (false, 0) := by
  obtain ⟨h3, h2, h1, h0⟩ := bcdNibble_of_packedAs h
  rw [bcdValue, h3, h2, h1, h0, if_pos hbad]

end

/-- Two bytes, the first above the second, hold the nibbles of both. -/
theorem packedAs_append (hi lo : Byte) :
    PackedAs (hi ++ lo) (hi.toNat / 16) (hi.toNat % 16) (lo.toNat / 16) (lo.toNat % 16) := by
  refine ⟨?_, by omega⟩
  rw [toNat_append_add]
  omega

/-- The nibbles of ToBCD are the decimal digits (41_bcd.md R151). -/
theorem packedAs_toBcd {n : Nat} (h : n ≤ 9999) :
    PackedAs ((toBcd n).1 ++ (toBcd n).2) (n / 1000) (n / 100 % 10) (n / 10 % 10) (n % 10) := by
  refine ⟨?_, by omega⟩
  rw [toNat_append_add, toBcd_fst n h, toBcd_snd]
  omega

/-- FromBCD undoes ToBCD (41_bcd.md R165). -/
theorem bcdValue_toBcd {n : Nat} (h : n ≤ 9999) : bcdValue ((toBcd n).1 ++ (toBcd n).2) = (true, n) := by
  rw [bcdValue_of_digits (packedAs_toBcd h) (by omega)]
  congr 1
  omega

theorem bcdWord_toNat {n : Nat} (h : n ≤ 9999) :
    (bcdWord n).toNat = 4096 * (n / 1000) + 256 * (n / 100 % 10) + 16 * (n / 10 % 10) + n % 10 :=
  (BitVec.toNat_setWidth_of_le (by omega)).trans (packedAs_toBcd h).toNat_eq

/-! ## FromBCD as a completion -/

/-- The completion of FromBCD puts the value of a valid field in RES (41_bcd.md R152). -/
theorem commit_fromBcd_valid {s : State} {r : BitVec 16} {v : Nat} (h : bcdValue r = (true, v)) :
    s.commit (fromBcd s r) = (s.setRes (BitVec.ofNat 64 v)).succeed {} := by
  rw [fromBcd, h, if_pos rfl, State.commit_ok]

theorem commit_fromBcd_invalid {s : State} {r : BitVec 16} {v : Nat} (h : bcdValue r = (false, v)) :
    s.commit (fromBcd s r) = s.raise .badBcd := by
  rw [fromBcd, h, if_neg Bool.false_ne_true, State.commit_error]

/-- FromBCD of the pair that ToBCD gave completes with the number itself in RES (41_bcd.md R165). -/
theorem commit_fromBcd_toBcd (s : State) {v : BitVec 64} (h : v.toNat ≤ 9999) :
    s.commit (fromBcd s ((toBcd v.toNat).1 ++ (toBcd v.toNat).2)) = (s.setRes v).succeed {} := by
  rw [commit_fromBcd_valid (bcdValue_toBcd h), BitVec.ofNat_toNat, BitVec.setWidth_eq]

/-! ## The completion of a command that judges no frame -/

section
variable {i : Instr} {s : State}

theorem exec_of_pseudocode {r : Result} (hi : ¬ JudgesFrame i) (h : pseudocode i s = r) :
    exec i s = .next (s.commit r) := by
  rw [exec_eq_commit, if_neg hi, h]

theorem exec_of_pseudocode_ok {f : Flags} {t : State} (hi : ¬ JudgesFrame i) (h : pseudocode i s = .ok (f, t)) :
    exec i s = .next (t.succeed f) := exec_of_pseudocode hi h

theorem exec_of_pseudocode_error {e : ErrCode} (hi : ¬ JudgesFrame i) (h : pseudocode i s = .error e) :
    exec i s = .next (s.raise e) := exec_of_pseudocode hi h

end

/-! ## BCDENC and BCDDEC -/

theorem exec_bcdenc {s : State} (h : s.opa.toNat ≤ 9999) :
    exec .bcdenc s = .next ((s.setRes (bcdWord s.opa.toNat)).succeed {}) :=
  exec_of_pseudocode_ok (by decide) (if_neg (Nat.not_lt.2 h))

theorem exec_bcdenc_outOfRange {s : State} (h : 9999 < s.opa.toNat) :
    exec .bcdenc s = .next (s.raise .outOfRange) :=
  exec_of_pseudocode_error (by decide) (if_pos h)

/-- OPA[63:16] is 0 exactly when OPA fits 16 bits (41_bcd.md R156). -/
theorem opa_extractLsb'_high_eq_zero_iff (s : State) : s.opa.extractLsb' 16 48 = 0 ↔ s.opa.toNat < 65536 := by
  rw [← BitVec.toNat_inj, BitVec.extractLsb'_toNat, Nat.shiftRight_eq_div_pow]
  simp only [BitVec.ofNat_eq_ofNat, BitVec.toNat_ofNat]
  omega

theorem exec_bcddec {s : State} (h : s.opa.toNat < 65536) :
    exec .bcddec s = .next (s.commit (fromBcd s (s.opa.extractLsb' 0 16))) :=
  exec_of_pseudocode (by decide) (if_neg (not_not.2 ((opa_extractLsb'_high_eq_zero_iff s).2 h)))

theorem exec_bcddec_high {s : State} (h : 65536 ≤ s.opa.toNat) : exec .bcddec s = .next (s.raise .badBcd) :=
  exec_of_pseudocode_error (by decide) (if_pos (mt (opa_extractLsb'_high_eq_zero_iff s).1 (Nat.not_lt.2 h)))

/-- BCDDEC of a 16-bit value reads that value's digits (41_bcd.md R156). -/
theorem exec_bcddec_setWidth {s : State} {r : BitVec 16} (h : s.opa = r.setWidth 64) :
    exec .bcddec s = .next (s.commit (fromBcd s r)) := by
  have hsmall : s.opa.toNat < 65536 := by
    rw [h, BitVec.toNat_setWidth_of_le (by omega)]
    exact r.isLt
  rw [exec_bcddec hsmall, h, BitVec.extractLsb'_setWidth_of_le (by decide), BitVec.extractLsb'_eq_self]

/-- The operand of BCDDEC as a 16-bit value. -/
theorem exists_opa_eq_setWidth {s : State} {d3 d2 d1 d0 : Nat}
    (h : s.opa.toNat = 4096 * d3 + 256 * d2 + 16 * d1 + d0) (hnibbles : d3 < 16 ∧ d2 < 16 ∧ d1 < 16 ∧ d0 < 16) :
    ∃ r : BitVec 16, s.opa = r.setWidth 64 ∧ PackedAs r d3 d2 d1 d0 := by
  have hr : (BitVec.ofNat 16 s.opa.toNat).toNat = s.opa.toNat := toNat_ofNat_of_lt (by omega)
  refine ⟨BitVec.ofNat 16 s.opa.toNat, BitVec.eq_of_toNat_eq ?_, hr.trans h, hnibbles⟩
  rw [BitVec.toNat_setWidth_of_le (by omega), hr]

/-! ## BCDST and BCDLD -/

/-- The two bytes of a packed value fit a buffer up to index 16382 (20_memory.md R70). -/
theorem inBounds_two_iff {a : Nat} : inBounds a 2 ↔ a ≤ 16382 := Nat.add_le_add_iff_right (n := 2)

/-- The state of a successful BCDST before its completion: the digit pairs in PBUF, the packed value in RES
(41_bcd.md R159). -/
def State.bcdStored (s : State) (a : Nat) : State :=
  (s.writeBytes .pbuf a [(toBcd s.opa.toNat).1, (toBcd s.opa.toNat).2]).setRes (bcdWord s.opa.toNat)

theorem bcdStored_res (s : State) (a : Nat) : (s.bcdStored a).res = bcdWord s.opa.toNat := State.res_setRes ..

theorem bcdStored_readByte_first (s : State) (a : Nat) :
    (s.bcdStored a).readByte .pbuf a = (toBcd s.opa.toNat).1 := by
  simp [State.bcdStored, readByte_writeBytes]

theorem bcdStored_readByte_second (s : State) (a : Nat) :
    (s.bcdStored a).readByte .pbuf (a + 1) = (toBcd s.opa.toNat).2 := by
  simp [State.bcdStored, readByte_writeBytes]

theorem bcdStored_readByte_outside (s : State) {a k : Nat} (h : k < a ∨ a + 2 ≤ k) :
    (s.bcdStored a).readByte .pbuf k = s.readByte .pbuf k := by
  rw [State.bcdStored, readByte_setRes, readByte_writeBytes, dif_neg]
  simp only [List.length_cons, List.length_nil]
  omega

section
variable {s : State} {a : BitVec 14}

theorem exec_bcdst (ha : inBounds a.toNat 2) (h : s.opa.toNat ≤ 9999) :
    exec (.bcdst a) s = .next ((s.bcdStored a.toNat).succeed {}) :=
  exec_of_pseudocode_ok (by simp) ((if_neg (not_not.2 ha)).trans (if_neg (Nat.not_lt.2 h)))

theorem exec_bcdst_bounds (ha : ¬ inBounds a.toNat 2) : exec (.bcdst a) s = .next (s.raise .bounds) :=
  exec_of_pseudocode_error (by simp) (if_pos ha)

theorem exec_bcdst_outOfRange (ha : inBounds a.toNat 2) (h : 9999 < s.opa.toNat) :
    exec (.bcdst a) s = .next (s.raise .outOfRange) :=
  exec_of_pseudocode_error (by simp) ((if_neg (not_not.2 ha)).trans (if_pos h))

theorem exec_bcdld (ha : inBounds a.toNat 2) : exec (.bcdld a) s =
    .next (s.commit (fromBcd s (s.readByte .pbuf a.toNat ++ s.readByte .pbuf (a.toNat + 1)))) :=
  exec_of_pseudocode (by simp) (if_neg (not_not.2 ha))

theorem exec_bcdld_bounds (ha : ¬ inBounds a.toNat 2) : exec (.bcdld a) s = .next (s.raise .bounds) :=
  exec_of_pseudocode_error (by simp) (if_pos ha)

end

/-! ## The statements -/

/-- Settles O39: RES holds ToBCD of OPA. -/
theorem bcdencPacksFourDigits : Obligations.BcdencPacksFourDigits := by
  rintro s _ rfl
  refine ⟨fun h => ⟨_, exec_bcdenc h, rfl, ?_⟩, fun h => exec_bcdenc_outOfRange h⟩
  rw [res_succeed, State.res_setRes, bcdWord_toNat h]

/-- Settles O40: OPA is a 16-bit value with the given nibbles, which FromBCD reads or refuses. -/
theorem bcddecReadsFourDigits : Obligations.BcddecReadsFourDigits := by
  refine fun s => ⟨fun d3 d2 d1 d0 hopa h3 h2 h1 h0 => ?_, fun h => exec_bcddec_high h⟩
  obtain ⟨r, hr, hpacked⟩ := exists_opa_eq_setWidth hopa ⟨h3, h2, h1, h0⟩
  rw [exec_bcddec_setWidth hr]
  refine ⟨fun h3' h2' h1' h0' => ?_, fun hbad => ?_⟩
  · rw [commit_fromBcd_valid (bcdValue_of_digits hpacked ⟨h3', h2', h1', h0'⟩)]
    refine ⟨_, rfl, rfl, ?_⟩
    rw [res_succeed, State.res_setRes, toNat_ofNat_of_lt (by omega)]
  · rw [commit_fromBcd_invalid (bcdValue_of_not_digits hpacked hbad)]
    rfl

/-- Settles O41: the two bytes of ToBCD are written and read back, and the frame is the rest of PBUF. -/
theorem bcdstStoresTheLength : Obligations.BcdstStoresTheLength := by
  rintro s a _ rfl
  refine ⟨fun ha h => ⟨_, exec_bcdst (inBounds_two_iff.2 ha) h, rfl, ?_⟩,
    fun ha => exec_bcdst_bounds (mt inBounds_two_iff.1 (Nat.not_le.2 ha)),
    fun ha h => exec_bcdst_outOfRange (inBounds_two_iff.2 ha) h⟩
  simp only [readByte_succeed, res_succeed, bcdStored_readByte_first, bcdStored_readByte_second]
  exact ⟨toBcd_fst _ h, toBcd_snd _, bcdStored_res s _, fun k hk => bcdStored_readByte_outside s hk⟩

/-- Settles O42: the nibbles are those of the two bytes, which FromBCD reads or refuses. -/
theorem bcdldLoadsTheLength : Obligations.BcdldLoadsTheLength := by
  rintro s a _ _ rfl rfl
  have hpacked := packedAs_append (s.readByte .pbuf a.toNat) (s.readByte .pbuf (a.toNat + 1))
  refine ⟨fun ha h3 h2 h1 h0 => ?_, fun ha hbad => ?_,
    fun ha => exec_bcdld_bounds (mt inBounds_two_iff.1 (Nat.not_le.2 ha))⟩
  · rw [exec_bcdld (inBounds_two_iff.2 ha), commit_fromBcd_valid (bcdValue_of_digits hpacked ⟨h3, h2, h1, h0⟩)]
    refine ⟨_, rfl, rfl, ?_⟩
    rw [res_succeed, State.res_setRes, toNat_ofNat_of_lt (by omega)]
  · rw [exec_bcdld (inBounds_two_iff.2 ha), commit_fromBcd_invalid (bcdValue_of_not_digits hpacked hbad)]
    rfl

/-- Settles O43: the two commands that read, BCDDEC and BCDLD, find the pair that ToBCD gave. -/
theorem bcdRoundTrip : Obligations.BcdRoundTrip := by
  refine ⟨fun n h => bcdValue_toBcd h, fun s h => ?_, fun s a h ha => ?_, fun s a h ha i hi => ?_⟩
  · refine ⟨_, _, exec_bcdenc h, exec_bcddec_setWidth (State.res_setRes s _), ?_⟩
    rw [commit_fromBcd_toBcd _ h]
    exact ⟨rfl, State.res_setRes ..⟩
  · refine ⟨_, _, exec_bcdst ha h, exec_bcdld ha, ?_⟩
    rw [readByte_succeed, readByte_succeed, bcdStored_readByte_first, bcdStored_readByte_second,
      commit_fromBcd_toBcd _ h]
    exact ⟨rfl, State.res_setRes ..⟩
  · rcases List.mem_pair.1 hi with rfl | rfl
    · exact ⟨_, exec_bcdenc_outOfRange h, rfl⟩
    · exact ⟨_, exec_bcdst_outOfRange ha h, rfl⟩

end Sys2Proof.Machine
end

section
/-! PROOFS. The checksum as the parity of each bit position, the outcomes of LRC and VERIFY, and the statements of
42_checksum.md (spec/42_checksum.md R170 to R178). -/

namespace Sys2Proof.Machine

open Sys2Proof.Laws

/-! ## The checksum of a string -/

@[simp] theorem xorBytes_singleton (b : Byte) : xorBytes [b] = b := BitVec.zero_xor

/-- Bit k of the checksum is the parity of the bytes that have a 1 in bit k (42_checksum.md R170). -/
theorem xorBytes_getLsbD (bytes : List Byte) (k : Nat) :
    (xorBytes bytes).getLsbD k = decide (bytes.countP (fun b => b.getLsbD k) % 2 = 1) := by
  induction bytes with
  | nil => simp [xorBytes]
  | cons b rest ih =>
    rw [xorBytes_cons, BitVec.getLsbD_xor, ih, List.countP_cons]
    cases b.getLsbD k with
    | false => rw [Bool.false_xor, if_neg Bool.false_ne_true, Nat.add_zero]
    | true =>
      rw [Bool.true_xor, if_pos rfl, ← decide_not, decide_eq_decide]
      omega

/-- The order of the bytes does not matter: a permutation keeps each count of ones (42_checksum.md R170). -/
theorem xorBytes_perm {p q : List Byte} (h : p.Perm q) : xorBytes p = xorBytes q :=
  BitVec.eq_of_getLsbD_eq fun k _ => by rw [xorBytes_getLsbD, xorBytes_getLsbD, h.countP_eq]

/-! ## The operands -/

/-- START and COUNT from OPB as a number (42_checksum.md R171). -/
theorem opb_range {s : State} {start count : Nat} (h : s.opb.toNat = 65536 * count + start) (hstart : start < 65536) :
    s.opbLow.toNat = start ∧ s.opbHigh.toNat = count := by
  simp only [State.opbLow, State.opbHigh, BitVec.extractLsb'_toNat, Nat.shiftRight_eq_div_pow]
  omega

/-- For an operand that is a byte, VERIFY's comparison of bytes is the comparison of numbers (42_checksum.md R174). -/
theorem beq_opa_byte {s : State} (h : s.opa.toNat ≤ 0xFF) (x : Byte) :
    (x == s.opa.extractLsb' 0 8) = decide (x.toNat = s.opa.toNat) := by
  have hbyte : (s.opa.extractLsb' 0 8).toNat = s.opa.toNat := by
    rw [BitVec.extractLsb'_toNat, Nat.shiftRight_zero, Nat.mod_eq_of_lt (by omega)]
  rw [← hbyte, Bool.beq_eq_decide_eq, decide_eq_decide, BitVec.toNat_inj]

/-! ## LRC and VERIFY -/

section
variable {s : State} {b : Buf}

theorem exec_lrc (h : inBounds s.opbLow.toNat s.opbHigh.toNat) :
    exec (.lrc b) s = .next ((s.setRes ((s.rangeLrc b).setWidth 64)).succeed {}) :=
  exec_of_pseudocode_ok (by simp) (if_neg (not_not.2 h))

theorem exec_lrc_bounds (h : ¬ inBounds s.opbLow.toNat s.opbHigh.toNat) :
    exec (.lrc b) s = .next (s.raise .bounds) :=
  exec_of_pseudocode_error (by simp) (if_pos h)

theorem exec_verify (h : inBounds s.opbLow.toNat s.opbHigh.toNat) (hopa : s.opa.toNat ≤ 0xFF) :
    exec (.verify b) s = .next ((s.setRes ((s.rangeLrc b).setWidth 64)).succeed
      { ok := decide ((s.rangeLrc b).toNat = s.opa.toNat) }) := by
  rw [← beq_opa_byte hopa]
  exact exec_of_pseudocode_ok (by simp) ((if_neg (not_not.2 h)).trans (if_neg (Nat.not_lt.2 hopa)))

theorem exec_verify_bounds (h : ¬ inBounds s.opbLow.toNat s.opbHigh.toNat) :
    exec (.verify b) s = .next (s.raise .bounds) :=
  exec_of_pseudocode_error (by simp) (if_pos h)

theorem exec_verify_outOfRange (h : inBounds s.opbLow.toNat s.opbHigh.toNat) (hopa : 0xFF < s.opa.toNat) :
    exec (.verify b) s = .next (s.raise .outOfRange) :=
  exec_of_pseudocode_error (by simp) ((if_neg (not_not.2 h)).trans (if_pos hopa))

end

/-! ## The checksum of a frame with its checksum byte -/

/-- The XOR over FBUF[1..n) is the frame checksum with the checksum byte folded in (40_frame_codec.md R121). -/
theorem xorBytes_readBytes_frame (s : State) {n : Nat} (h : 2 ≤ n) :
    xorBytes (s.readBytes .fbuf 1 (n - 1)) = s.frameLrc n ^^^ s.readByte .fbuf (n - 1) := by
  obtain ⟨k, rfl⟩ := Nat.exists_eq_add_of_le' h
  rw [show k + 2 - 1 = k + 1 by omega, readBytes_succ, xorBytes_append, xorBytes_singleton, Nat.add_comm 1 k]
  rfl

/-- A frame is valid exactly when the XOR over FBUF[1..n) is 0 (42_checksum.md R177). -/
theorem xorBytes_readBytes_frame_eq_zero_iff (s : State) {n : Nat} (h : 2 ≤ n) :
    xorBytes (s.readBytes .fbuf 1 (n - 1)) = 0 ↔ s.frameOk n = true := by
  rw [xorBytes_readBytes_frame s h, State.frameOk, beq_iff_eq]
  exact BitVec.xor_eq_zero_iff

/-- A byte in RES is 0 exactly when it is the byte 0x00. -/
theorem setWidth_byte_eq_zero_iff (x : Byte) : x.setWidth 64 = 0 ↔ x = 0 := by
  rw [← BitVec.toNat_inj, ← BitVec.toNat_inj, BitVec.toNat_setWidth_of_le (by omega)]
  rfl

/-! ## The statements -/

/-- Settles O35: the parity of each bit position fixes the checksum. -/
theorem checksumIsBitParity : Obligations.ChecksumIsBitParity :=
  ⟨xorBytes_getLsbD, rfl, fun _ _ h => xorBytes_perm h⟩

/-- Settles O36: START and COUNT are the halves of OPB, and the range fits or does not. -/
theorem lrcOfARange : Obligations.LrcOfARange := by
  intro s b start count hopb hstart
  obtain ⟨rfl, rfl⟩ := opb_range hopb hstart
  exact ⟨fun h => ⟨_, exec_lrc h, rfl, State.res_setRes s _⟩, fun h => exec_lrc_bounds (Nat.not_le.2 h)⟩

/-- Settles O37: the two errors in their order, and the comparison as numbers where OPA is a byte. -/
theorem verifyComparesTheChecksum : Obligations.VerifyComparesTheChecksum := by
  intro s b start count hopb hstart
  obtain ⟨rfl, rfl⟩ := opb_range hopb hstart
  exact ⟨fun h hopa => ⟨_, exec_verify h hopa, rfl, rfl, State.res_setRes s _⟩,
    fun h => exec_verify_bounds (Nat.not_le.2 h), fun h hopa => exec_verify_outOfRange h hopa⟩

/-- Settles O38: both sides say that the XOR over FBUF[1..n) is 0. -/
theorem frameIdentity : Obligations.FrameIdentity := by
  intro s n hn h₁ h₂
  have hopb : (BitVec.ofNat 16 (n - 1) ++ 1#16).toNat = 65536 * (n - 1) + 1 := by
    rw [toNat_append_add, toNat_ofNat_of_lt (by omega), Nat.mul_comm]
    rfl
  have hbounds : inBounds 1 (n - 1) := show 1 + (n - 1) ≤ 16384 by omega
  obtain ⟨hstart, hcount⟩ := opb_range (s := { s with opb := BitVec.ofNat 16 (n - 1) ++ 1#16 }) hopb (by decide)
  obtain ⟨u, hu, -, hok, -⟩ := exec_judgesFrame_verdict (.inr rfl) hn h₁ h₂
  refine ⟨_, u, exec_lrc (by rw [hstart, hcount]; exact hbounds), hu, ?_⟩
  rw [res_succeed, State.res_setRes, setWidth_byte_eq_zero_iff, State.rangeLrc, hstart, hcount, hok]
  exact xorBytes_readBytes_frame_eq_zero_iff s (by omega)

end Sys2Proof.Machine
end

section
/-! PROOFS. Byte strings, digit strings and date values in a buffer, the outcomes of NUMENC, NUMDEC, MINOR, PAD, FLDLEN,
DATEENC, DATEDEC and TLVNEXT, and the statements of 43_field_marshal.md (spec/43_field_marshal.md R190 to R232). -/

namespace Sys2Proof.Machine

open Sys2Proof.Laws

/-! ## Byte strings in a buffer -/

theorem readBytes_cons (s : State) (b : Buf) (a n : Nat) :
    s.readBytes b a (n + 1) = s.readByte b a :: s.readBytes b (a + 1) n := by
  simp [State.readBytes, List.range_succ_eq_map, Function.comp_def, Nat.add_assoc, Nat.add_comm 1]

/-- A piece of a string read from a buffer is the string read at the piece's own index. -/
theorem take_drop_readBytes (s : State) (b : Buf) (a : Nat) {i n m : Nat} (h : i + n ≤ m) :
    ((s.readBytes b a m).drop i).take n = s.readBytes b (a + i) n := by
  refine List.ext_getElem (by simp; omega) fun k _ _ => ?_
  simp [Nat.add_assoc]

theorem readBytes_getElem? (s : State) (b : Buf) (a : Nat) {n k : Nat} (h : k < n) :
    (s.readBytes b a n)[k]? = some (s.readByte b (a + k)) := by
  rw [List.getElem?_eq_getElem (by rwa [readBytes_length]), readBytes_getElem]

theorem readByte_writeBytes_inside (s : State) (b : Buf) (a : Nat) {bytes : List Byte} {k : Nat} {x : Byte}
    (h : bytes[k]? = some x) : (s.writeBytes b a bytes).readByte b (a + k) = x := by
  obtain ⟨hk, hx⟩ := List.getElem?_eq_some_iff.1 h
  rw [readByte_writeBytes, dif_pos (by omega), ← hx]
  congr 1
  omega

theorem readByte_writeBytes_outside (s : State) (b : Buf) {a n k : Nat} {bytes : List Byte}
    (hlen : bytes.length = n) (h : k < a ∨ a + n ≤ k) :
    (s.writeBytes b a bytes).readByte b k = s.readByte b k := by
  rw [readByte_writeBytes, dif_neg (by omega)]

theorem readBytes_writeBytes (s : State) (b : Buf) (a : Nat) {n : Nat} {bytes : List Byte}
    (hlen : bytes.length = n) : (s.writeBytes b a bytes).readBytes b a n = bytes :=
  hlen ▸ readBytes_writeBytes_same s b a bytes

/-! ## Digit strings in a buffer -/

theorem all_isDigit_readBytes_iff {s : State} {b : Buf} {a n : Nat} : (s.readBytes b a n).all isDigit = true ↔
    ∀ k < n, 0x30 ≤ (s.readByte b (a + k)).toNat ∧ (s.readByte b (a + k)).toNat ≤ 0x39 := by
  simp [State.readBytes, isDigit_iff]

theorem not_all_isDigit_readBytes_iff {s : State} {b : Buf} {a n : Nat} : ¬ (s.readBytes b a n).all isDigit = true ↔
    ∃ k < n, (s.readByte b (a + k)).toNat < 0x30 ∨ 0x39 < (s.readByte b (a + k)).toNat := by
  rw [all_isDigit_readBytes_iff]
  simp only [not_forall, not_and_or, Nat.not_le, exists_prop]

/-- The number that the digits of a buffer range spell, as a sum (43_field_marshal.md R194). -/
theorem decValue_readBytes (s : State) (b : Buf) (a n : Nat) : decValue (s.readBytes b a n) =
    ∑ k ∈ Finset.range n, ((s.readByte b (a + k)).toNat - 0x30) * 10 ^ (n - 1 - k) := by
  induction n generalizing a with
  | zero => rfl
  | succ n ih =>
    rw [readBytes_cons, decValue, ih, readBytes_length, Finset.sum_range_succ', Nat.add_comm]
    simp [digitVal_eq, Nat.add_assoc, Nat.add_comm 1, Nat.sub_sub]

section
variable {s : State} {b : Buf} {a i n m : Nat}

/-- A piece of a range of digits is digits. -/
theorem all_isDigit_readBytes_piece (h : (s.readBytes b a m).all isDigit = true) (hi : i + n ≤ m) :
    (s.readBytes b (a + i) n).all isDigit = true := by
  rw [all_isDigit_readBytes_iff] at h ⊢
  intro k hk
  rw [Nat.add_assoc]
  exact h (i + k) (by omega)

theorem decValue_readBytes_lt (h : (s.readBytes b a m).all isDigit = true) (hi : i + n ≤ m) :
    decValue (s.readBytes b (a + i) n) < 10 ^ n := by
  have hlt := decValue_lt _ (all_isDigit_readBytes_piece h hi)
  rwa [readBytes_length] at hlt

theorem digits_decValue_readBytes (h : (s.readBytes b a m).all isDigit = true) (hi : i + n ≤ m) :
    digits (decValue (s.readBytes b (a + i) n)) n = s.readBytes b (a + i) n := by
  have hdigits := digits_decValue _ (all_isDigit_readBytes_piece h hi)
  rwa [readBytes_length] at hdigits

end

theorem digits_getElem? {v w k : Nat} (h : k < w) : (digits v w)[k]? = some (digitChar (v / 10 ^ (w - 1 - k) % 10)) := by
  rw [List.getElem?_eq_getElem (by rwa [digits_length]), digits_getElem]

/-! ## NUMENC and NUMDEC -/

section
variable {s : State} {src : NumSrc} {w : BitVec 5} {a : BitVec 14}

theorem exec_numenc (ha : inBounds a.toNat w.toNat) (hv : (s.numSource src).toNat < 10 ^ w.toNat) :
    exec (.numenc src w a) s =
      .next ((s.writeBytes .pbuf a.toNat (digits (s.numSource src).toNat w.toNat)).succeed {}) :=
  exec_of_pseudocode_ok (by simp) ((if_neg (not_not.2 ha)).trans (if_neg (Nat.not_le.2 hv)))

theorem exec_numenc_bounds (ha : ¬ inBounds a.toNat w.toNat) :
    exec (.numenc src w a) s = .next (s.raise .bounds) :=
  exec_of_pseudocode_error (by simp) (if_pos ha)

theorem exec_numenc_outOfRange (ha : inBounds a.toNat w.toNat) (hv : 10 ^ w.toNat ≤ (s.numSource src).toNat) :
    exec (.numenc src w a) s = .next (s.raise .outOfRange) :=
  exec_of_pseudocode_error (by simp) ((if_neg (not_not.2 ha)).trans (if_pos hv))

theorem exec_numdec (ha : inBounds a.toNat w.toNat) (hdigits : (s.readBytes .pbuf a.toNat w.toNat).all isDigit = true)
    (hv : decValue (s.readBytes .pbuf a.toNat w.toNat) < 2 ^ 64) : exec (.numdec w a) s =
      .next ((s.setRes (BitVec.ofNat 64 (decValue (s.readBytes .pbuf a.toNat w.toNat)))).succeed {}) :=
  exec_of_pseudocode_ok (by simp)
    ((if_neg (not_not.2 ha)).trans ((if_neg (not_not.2 hdigits)).trans (if_neg (Nat.not_le.2 hv))))

theorem exec_numdec_bounds (ha : ¬ inBounds a.toNat w.toNat) : exec (.numdec w a) s = .next (s.raise .bounds) :=
  exec_of_pseudocode_error (by simp) (if_pos ha)

theorem exec_numdec_badDigit (ha : inBounds a.toNat w.toNat)
    (hbad : ¬ (s.readBytes .pbuf a.toNat w.toNat).all isDigit = true) :
    exec (.numdec w a) s = .next (s.raise .badDigit) :=
  exec_of_pseudocode_error (by simp) ((if_neg (not_not.2 ha)).trans (if_pos hbad))

theorem exec_numdec_outOfRange (ha : inBounds a.toNat w.toNat)
    (hdigits : (s.readBytes .pbuf a.toNat w.toNat).all isDigit = true)
    (hv : 2 ^ 64 ≤ decValue (s.readBytes .pbuf a.toNat w.toNat)) :
    exec (.numdec w a) s = .next (s.raise .outOfRange) :=
  exec_of_pseudocode_error (by simp)
    ((if_neg (not_not.2 ha)).trans ((if_neg (not_not.2 hdigits)).trans (if_pos hv)))

end

/-! ## MINOR -/

section
variable {m d : Nat}

/-- Half up: the result is within half a unit of m / d, and a tie goes up (43_field_marshal.md R198). -/
theorem roundUnits_half (hd : 0 < d) : 2 * (roundUnits .half m d * d) ≤ 2 * m + d ∧
    2 * m < 2 * (roundUnits .half m d * d) + d := by
  have hm := Nat.div_add_mod' m d
  have hr := Nat.mod_lt m hd
  rw [roundUnits, Nat.add_mul]
  split <;> omega

/-- Away from zero: the result is the least integer not below m / d (43_field_marshal.md R198). -/
theorem roundUnits_away (hd : 0 < d) : m ≤ roundUnits .away m d * d ∧ roundUnits .away m d * d < m + d := by
  have hm := Nat.div_add_mod' m d
  have hr := Nat.mod_lt m hd
  rw [roundUnits, Nat.add_mul]
  split <;> omega

/-- Rounding adds at most one to the quotient (43_field_marshal.md R199). -/
theorem roundUnits_le (rm : RMode) (m d : Nat) : roundUnits rm m d ≤ m / d + 1 := by
  cases rm <;>
  · rw [roundUnits]
    split <;> omega

/-- A divisor of ten or more leaves the rounded amount of a 64-bit operand below 2^64 (43_field_marshal.md R199). -/
theorem roundUnits_lt (rm : RMode) (hm : m < 2 ^ 64) (hd : 10 ≤ d) : roundUnits rm m d < 2 ^ 64 := by
  have hle := roundUnits_le rm m d
  have hdiv : m / d ≤ m / 10 := Nat.div_le_div_left hd (by decide)
  omega

end

theorem minorUnits_exact {scale : Nat} (h : scale ≤ 2) (rm : RMode) (m : Nat) :
    minorUnits rm scale m = m * 10 ^ (2 - scale) := if_pos h

theorem minorUnits_rounded {scale : Nat} (h : 2 < scale) (rm : RMode) (m : Nat) :
    minorUnits rm scale m = roundUnits rm m (10 ^ (scale - 2)) := if_neg (Nat.not_le.2 h)

/-- The exact product is the amount times 100 (43_field_marshal.md R198). -/
theorem mul_pow_sub_mul_pow {scale : Nat} (h : scale ≤ 2) (m : Nat) : m * 10 ^ (2 - scale) * 10 ^ scale = m * 100 := by
  rw [Nat.mul_assoc, ← Nat.pow_add, Nat.sub_add_cancel h]

section
variable {s : State} {rm : RMode} {sc : BitVec 5}

theorem exec_minor (h : minorUnits rm sc.toNat s.opa.toNat < 2 ^ 64) : exec (.minor rm sc) s =
    .next ((s.setRes (BitVec.ofNat 64 (minorUnits rm sc.toNat s.opa.toNat))).succeed {}) :=
  exec_of_pseudocode_ok (by simp) (if_neg (Nat.not_le.2 h))

theorem exec_minor_outOfRange (h : 2 ^ 64 ≤ minorUnits rm sc.toNat s.opa.toNat) :
    exec (.minor rm sc) s = .next (s.raise .outOfRange) :=
  exec_of_pseudocode_error (by simp) (if_pos h)

end

/-! ## PAD -/

section
variable {z : PadChar} {w k : Nat} {source : List Byte}

/-- On the left side the source bytes come first (43_field_marshal.md R204). -/
theorem padField_left_source (h : k < source.length) : (padField .left z w source)[k]? = source[k]? :=
  List.getElem?_append_left h

theorem padField_left_pad (h : source.length ≤ k) (hk : k < w) :
    (padField .left z w source)[k]? = some (padByte z) := by
  rw [padField, List.getElem?_append_right h, List.getElem?_replicate_of_lt (by omega)]

/-- On the right side the source bytes come after the pad bytes (43_field_marshal.md R204). -/
theorem padField_right_source : (padField .right z w source)[w - source.length + k]? = source[k]? := by
  rw [padField, List.getElem?_append_right (by simp), List.length_replicate, Nat.add_sub_cancel_left]

theorem padField_right_pad (h : k < w - source.length) :
    (padField .right z w source)[k]? = some (padByte z) := by
  rw [padField, List.getElem?_append_left (by simpa), List.getElem?_replicate_of_lt h]

end

theorem padByte_eq (z : PadChar) : padByte z = if z = .zero then 0x30 else 0x20 := by cases z <;> rfl

/-- The source string of PAD (43_field_marshal.md R204). -/
def State.padSource (s : State) : List Byte := s.readBytes .pbuf s.opbLow.toNat s.opbHigh.toNat

@[simp] theorem padSource_length (s : State) : s.padSource.length = s.opbHigh.toNat := readBytes_length ..

theorem padSource_getElem? {s : State} {k : Nat} (h : k < s.opbHigh.toNat) :
    s.padSource[k]? = some (s.readByte .pbuf (s.opbLow.toNat + k)) := readBytes_getElem? s _ _ h

section
variable {s : State} {j : Justify} {z : PadChar} {w : BitVec 8} {a : BitVec 14}

theorem exec_pad (hsrc : inBounds s.opbLow.toNat s.opbHigh.toNat) (ha : inBounds a.toNat w.toNat)
    (hlen : s.opbHigh.toNat ≤ w.toNat) : exec (.pad j z w a) s =
      .next ((s.writeBytes .pbuf a.toNat (padField j z w.toNat s.padSource)).succeed {}) :=
  exec_of_pseudocode_ok (by simp)
    ((if_neg (not_or.2 ⟨not_not.2 hsrc, not_not.2 ha⟩)).trans (if_neg (Nat.not_lt.2 hlen)))

theorem exec_pad_bounds (h : ¬ inBounds s.opbLow.toNat s.opbHigh.toNat ∨ ¬ inBounds a.toNat w.toNat) :
    exec (.pad j z w a) s = .next (s.raise .bounds) :=
  exec_of_pseudocode_error (by simp) (if_pos h)

theorem exec_pad_tooLong (hsrc : inBounds s.opbLow.toNat s.opbHigh.toNat) (ha : inBounds a.toNat w.toNat)
    (hlen : w.toNat < s.opbHigh.toNat) : exec (.pad j z w a) s = .next (s.raise .tooLong) :=
  exec_of_pseudocode_error (by simp) ((if_neg (not_or.2 ⟨not_not.2 hsrc, not_not.2 ha⟩)).trans (if_pos hlen))

end

/-! ## FLDLEN -/

/-- The first NUL is the first index that holds the byte 0x00 (43_field_marshal.md R210). -/
theorem firstNul_eq_findIdx (bytes : List Byte) : firstNul bytes = bytes.findIdx (· == Config.charNul) := by
  induction bytes with
  | nil => rfl
  | cons b rest ih => simp [firstNul, List.findIdx_cons, ih, Bool.cond_eq_ite]

section
variable {s : State} {b : Buf} {a n k : Nat}

theorem firstNul_readBytes_eq (hk : k < n) (hnul : s.readByte b (a + k) = 0x00)
    (hfirst : ∀ l < k, s.readByte b (a + l) ≠ 0x00) : firstNul (s.readBytes b a n) = k := by
  rw [firstNul_eq_findIdx, List.findIdx_eq (by rwa [readBytes_length])]
  simpa [hnul] using hfirst

theorem firstNul_readBytes_of_none (hnone : ∀ k < n, s.readByte b (a + k) ≠ 0x00) :
    firstNul (s.readBytes b a n) = n := by
  have hlen : firstNul (s.readBytes b a n) = (s.readBytes b a n).length := by
    rw [firstNul_eq_findIdx, List.findIdx_eq_length]
    simpa [State.readBytes] using hnone
  rw [hlen, readBytes_length]

end

section
variable {s : State} {w : BitVec 8} {a : BitVec 14}

theorem exec_fldlen (ha : inBounds a.toNat w.toNat) {k : Nat}
    (hk : firstNul (s.readBytes .pbuf a.toNat w.toNat) = k) :
    exec (.fldlen w a) s = .next ((s.setRes (BitVec.ofNat 64 k)).succeed { nul := decide (k < w.toNat) }) := by
  subst hk
  exact exec_of_pseudocode_ok (by simp) (if_neg (not_not.2 ha))

theorem exec_fldlen_bounds (ha : ¬ inBounds a.toNat w.toNat) : exec (.fldlen w a) s = .next (s.raise .bounds) :=
  exec_of_pseudocode_error (by simp) (if_pos ha)

end

/-! ## Date values as numbers -/

/-- A byte field of a date value. -/
theorem extractLsb'_byte_toNat (d : BitVec 64) (k : Nat) : (d.extractLsb' k 8).toNat = d.toNat / 2 ^ k % 256 := by
  rw [BitVec.extractLsb'_toNat, Nat.shiftRight_eq_div_pow]

theorem dateYear_eq (d : BitVec 64) : dateYear d = d.toNat / 2 ^ 48 := by
  rw [dateYear, BitVec.extractLsb'_toNat, Nat.shiftRight_eq_div_pow]
  omega

section
variable {y mo dy h mi se : Nat}

/-- The number of a date value whose fields fit their widths (43_field_marshal.md R215). -/
theorem dateOf_toNat (hy : y < 65536) (hmo : mo < 256) (hdy : dy < 256) (hh : h < 256) (hmi : mi < 256)
    (hse : se < 256) : (dateOf y mo dy h mi se).toNat =
      2 ^ 48 * y + 2 ^ 40 * mo + 2 ^ 32 * dy + 2 ^ 24 * h + 2 ^ 16 * mi + 2 ^ 8 * se := by
  simp only [dateOf, toNat_append_add, BitVec.toNat_ofNat]
  omega

/-- The wire form of a date value spells the fields it was made of (43_field_marshal.md R218, R222). -/
theorem dateString_dateOf (hy : y < 65536) (hmo : mo < 256) (hdy : dy < 256) (hh : h < 256) (hmi : mi < 256)
    (hse : se < 256) : dateString (dateOf y mo dy h mi se) =
      digits y 4 ++ digits mo 2 ++ digits dy 2 ++ digits h 2 ++ digits mi 2 ++ digits se 2 := by
  have hnum := dateOf_toNat hy hmo hdy hh hmi hse
  unfold dateString
  rw [dateYear_eq]
  simp only [dateMonth, dateDay, dateHour, dateMinute, dateSecond, extractLsb'_byte_toNat, hnum]
  congr <;> omega

end

/-- The two-digit fields of a date value in their order, MONTH to SECOND (43_field_marshal.md R215). -/
def dateByte (d : BitVec 64) (f : Nat) : Nat := (d.extractLsb' (40 - 8 * f) 8).toNat

theorem dateByte_eq (d : BitVec 64) (f : Nat) : dateByte d f = d.toNat / 2 ^ (40 - 8 * f) % 256 :=
  extractLsb'_byte_toNat ..

theorem daysInMonth_le (y mo : Nat) : daysInMonth y mo ≤ 31 := by
  unfold daysInMonth
  (repeat' split) <;> decide

theorem dateValid_iff {d : BitVec 64} : dateValid d = true ↔ d.extractLsb' 0 8 = 0 ∧
    (1 ≤ dateYear d ∧ dateYear d ≤ 9999) ∧ (1 ≤ dateMonth d ∧ dateMonth d ≤ 12) ∧
    (1 ≤ dateDay d ∧ dateDay d ≤ daysInMonth (dateYear d) (dateMonth d)) ∧
    dateHour d ≤ 23 ∧ dateMinute d ≤ 59 ∧ dateSecond d ≤ 59 := by
  simp only [dateValid, Bool.and_eq_true, beq_iff_eq, decide_eq_true_eq, and_assoc]

theorem dateByte_lt_of_dateValid {d : BitVec 64} (hd : dateValid d = true) {f : Nat} (hf : f < 5) :
    dateByte d f < 10 ^ 2 := by
  have hdays := daysInMonth_le (dateYear d) (dateMonth d)
  obtain ⟨-, -, hmo, hdy, hh, hmi, hse⟩ := dateValid_iff.1 hd
  match f with
  | 0 => exact Nat.lt_of_le_of_lt hmo.2 (by decide)
  | 1 => exact Nat.lt_of_le_of_lt (hdy.2.trans hdays) (by decide)
  | 2 => exact Nat.lt_of_le_of_lt hh (by decide)
  | 3 => exact Nat.lt_of_le_of_lt hmi (by decide)
  | 4 => exact Nat.lt_of_le_of_lt hse (by decide)

theorem dateYear_lt_of_dateValid {d : BitVec 64} (hd : dateValid d = true) : dateYear d < 10 ^ 4 := by
  obtain ⟨-, hy, -⟩ := dateValid_iff.1 hd
  exact Nat.lt_succ_of_le hy.2

/-! ## Date strings -/

@[simp] theorem dateString_length (d : BitVec 64) : (dateString d).length = 14 := by simp [dateString]

theorem dateString_all (d : BitVec 64) : (dateString d).all isDigit = true := by
  simp only [dateString, List.all_append, digits_all, Bool.and_self]

theorem dateString_take (d : BitVec 64) : (dateString d).take 4 = digits (dateYear d) 4 := rfl

theorem dateString_drop_take (d : BitVec 64) {f : Nat} (hf : f < 5) :
    ((dateString d).drop (4 + 2 * f)).take 2 = digits (dateByte d f) 2 := by
  match f with
  | 0 | 1 | 2 | 3 | 4 => rfl

section
variable {s : State} {b : Buf} {a : Nat} {d : BitVec 64}

/-- The year digits of a date string in a buffer spell the year (43_field_marshal.md R218). -/
theorem decValue_readBytes_year (hs : s.readBytes b a 14 = dateString d) (hd : dateValid d = true) :
    decValue (s.readBytes b a 4) = dateYear d := by
  have hpiece : s.readBytes b a 4 = digits (dateYear d) 4 := by
    rw [← dateString_take, ← hs]
    exact (take_drop_readBytes s b a (i := 0) (by decide)).symm
  rw [hpiece, decValue_digits, Nat.mod_eq_of_lt (dateYear_lt_of_dateValid hd)]

/-- Each later pair of digits spells its field (43_field_marshal.md R218). -/
theorem decValue_readBytes_dateByte (hs : s.readBytes b a 14 = dateString d) (hd : dateValid d = true)
    {f : Nat} (hf : f < 5) : decValue (s.readBytes b (a + 4 + 2 * f) 2) = dateByte d f := by
  have hpiece : s.readBytes b (a + 4 + 2 * f) 2 = digits (dateByte d f) 2 := by
    rw [← dateString_drop_take d hf, ← hs, take_drop_readBytes s b a (by omega), Nat.add_assoc]
  rw [hpiece, decValue_digits, Nat.mod_eq_of_lt (dateByte_lt_of_dateValid hd hf)]

/-- The date value of a field is made of the numbers that its pieces spell (43_field_marshal.md R222). -/
theorem dateOfString_readBytes (s : State) (b : Buf) (a : Nat) : dateOfString (s.readBytes b a 14) =
    dateOf (decValue (s.readBytes b a 4)) (decValue (s.readBytes b (a + 4) 2)) (decValue (s.readBytes b (a + 6) 2))
      (decValue (s.readBytes b (a + 8) 2)) (decValue (s.readBytes b (a + 10) 2))
      (decValue (s.readBytes b (a + 12) 2)) := rfl

/-- The number of a date value read from digits (43_field_marshal.md R215, R222). -/
theorem dateOfString_readBytes_toNat (h : (s.readBytes b a 14).all isDigit = true) :
    (dateOfString (s.readBytes b a 14)).toNat = 2 ^ 48 * decValue (s.readBytes b a 4) +
      ∑ f ∈ Finset.range 5, 2 ^ (40 - 8 * f) * decValue (s.readBytes b (a + 4 + 2 * f) 2) := by
  have hyear : decValue (s.readBytes b a 4) < 10 ^ 4 := decValue_readBytes_lt (i := 0) h (by decide)
  have hbyte : ∀ i, i + 2 ≤ 14 → decValue (s.readBytes b (a + i) 2) < 256 :=
    fun i hi => (decValue_readBytes_lt h hi).trans (by decide)
  rw [dateOfString_readBytes, dateOf_toNat (by omega) (hbyte 4 (by decide)) (hbyte 6 (by decide))
    (hbyte 8 (by decide)) (hbyte 10 (by decide)) (hbyte 12 (by decide))]
  simp [Finset.sum_range_succ, Nat.add_assoc]

/-- The wire form of a date value read from digits is those digits (43_field_marshal.md R223). -/
theorem dateString_dateOfString_readBytes (h : (s.readBytes b a 14).all isDigit = true) :
    dateString (dateOfString (s.readBytes b a 14)) = s.readBytes b a 14 := by
  have hyear : decValue (s.readBytes b a 4) < 10 ^ 4 := decValue_readBytes_lt (i := 0) h (by decide)
  have hyearDigits : digits (decValue (s.readBytes b a 4)) 4 = s.readBytes b a 4 :=
    digits_decValue_readBytes (i := 0) h (by decide)
  have hbyte : ∀ i, i + 2 ≤ 14 → decValue (s.readBytes b (a + i) 2) < 256 :=
    fun i hi => (decValue_readBytes_lt h hi).trans (by decide)
  have hpair : ∀ i, i + 2 ≤ 14 → digits (decValue (s.readBytes b (a + i) 2)) 2 = s.readBytes b (a + i) 2 :=
    fun i hi => digits_decValue_readBytes h hi
  rw [dateOfString_readBytes, dateString_dateOf (by omega) (hbyte 4 (by decide)) (hbyte 6 (by decide))
    (hbyte 8 (by decide)) (hbyte 10 (by decide)) (hbyte 12 (by decide)), hyearDigits, hpair 4 (by decide),
    hpair 6 (by decide), hpair 8 (by decide), hpair 10 (by decide), hpair 12 (by decide)]
  rfl

end

/-! ## DATEENC and DATEDEC -/

section
variable {s : State} {a : BitVec 14}

theorem exec_dateenc {d : BitVec 64} (ha : inBounds a.toNat 14) (hopa : s.opa = d) (hd : dateValid d = true) :
    exec (.dateenc a) s = .next ((s.writeBytes .pbuf a.toNat (dateString d)).succeed {}) := by
  subst hopa
  exact exec_of_pseudocode_ok (by simp) ((if_neg (not_not.2 ha)).trans (if_neg (not_not.2 hd)))

theorem exec_dateenc_bounds (ha : ¬ inBounds a.toNat 14) : exec (.dateenc a) s = .next (s.raise .bounds) :=
  exec_of_pseudocode_error (by simp) (if_pos ha)

theorem exec_dateenc_badDate (ha : inBounds a.toNat 14) (hd : ¬ dateValid s.opa = true) :
    exec (.dateenc a) s = .next (s.raise .badDate) :=
  exec_of_pseudocode_error (by simp) ((if_neg (not_not.2 ha)).trans (if_pos hd))

theorem exec_datedec (ha : inBounds a.toNat 14) (hdigits : (s.readBytes .pbuf a.toNat 14).all isDigit = true)
    (hd : dateValid (dateOfString (s.readBytes .pbuf a.toNat 14)) = true) : exec (.datedec a) s =
      .next ((s.setRes (dateOfString (s.readBytes .pbuf a.toNat 14))).succeed {}) :=
  exec_of_pseudocode_ok (by simp)
    ((if_neg (not_not.2 ha)).trans ((if_neg (not_not.2 hdigits)).trans (if_neg (not_not.2 hd))))

theorem exec_datedec_bounds (ha : ¬ inBounds a.toNat 14) : exec (.datedec a) s = .next (s.raise .bounds) :=
  exec_of_pseudocode_error (by simp) (if_pos ha)

theorem exec_datedec_badDigit (ha : inBounds a.toNat 14)
    (hbad : ¬ (s.readBytes .pbuf a.toNat 14).all isDigit = true) :
    exec (.datedec a) s = .next (s.raise .badDigit) :=
  exec_of_pseudocode_error (by simp) ((if_neg (not_not.2 ha)).trans (if_pos hbad))

theorem exec_datedec_badDate (ha : inBounds a.toNat 14)
    (hdigits : (s.readBytes .pbuf a.toNat 14).all isDigit = true)
    (hd : ¬ dateValid (dateOfString (s.readBytes .pbuf a.toNat 14)) = true) :
    exec (.datedec a) s = .next (s.raise .badDate) :=
  exec_of_pseudocode_error (by simp)
    ((if_neg (not_not.2 ha)).trans ((if_neg (not_not.2 hdigits)).trans (if_pos hd)))

/-- What a DATEDEC that accepts its field has seen: fourteen digits that spell a valid date, which RES takes
(43_field_marshal.md R222, R223). -/
theorem accepted_of_exec_datedec {t : State} (h : exec (.datedec a) s = .next t) (hok : t.errcode = .none) :
    (s.readBytes .pbuf a.toNat 14).all isDigit = true ∧
      dateValid (dateOfString (s.readBytes .pbuf a.toNat 14)) = true ∧
      t = (s.setRes (dateOfString (s.readBytes .pbuf a.toNat 14))).succeed {} := by
  have hraised : ∀ e ≠ ErrCode.none, exec (.datedec a) s ≠ .next (s.raise e) := by
    intro e he hr
    obtain rfl := Host.Outcome.next.inj (h.symm.trans hr)
    exact he hok
  have ha : inBounds a.toNat 14 := not_not.1 fun ha => hraised _ (by decide) (exec_datedec_bounds ha)
  have hdigits := not_not.1 fun hbad => hraised _ (by decide) (exec_datedec_badDigit ha hbad)
  have hd := not_not.1 fun hd => hraised _ (by decide) (exec_datedec_badDate ha hdigits hd)
  exact ⟨hdigits, hd, Host.Outcome.next.inj (h.symm.trans (exec_datedec ha hdigits hd))⟩

end

/-! ## TLVNEXT -/

/-- The three length bytes of the TLV entry at an index are the digits d2, d1, d0 (43_field_marshal.md R228). -/
structure TlvLengthDigits (s : State) (pos d2 d1 d0 : Nat) : Prop where
  hundreds : (s.readByte .pbuf (pos + 2)).toNat = 0x30 + d2
  tens : (s.readByte .pbuf (pos + 3)).toNat = 0x30 + d1
  ones : (s.readByte .pbuf (pos + 4)).toNat = 0x30 + d0
  decimal : d2 ≤ 9 ∧ d1 ≤ 9 ∧ d0 ≤ 9

section
variable {s : State} {pos d2 d1 d0 : Nat}

theorem tlvLength_all_isDigit (h : TlvLengthDigits s pos d2 d1 d0) :
    (s.readBytes .pbuf (pos + 2) 3).all isDigit = true := by
  obtain ⟨h2, h1, h0, hd2, hd1, hd0⟩ := h
  rw [all_isDigit_readBytes_iff]
  intro k hk
  match k with
  | 0 => rw [Nat.add_zero, h2]; omega
  | 1 => rw [Nat.add_assoc, h1]; omega
  | 2 => rw [Nat.add_assoc, h0]; omega

theorem tlvLen_eq (h : TlvLengthDigits s pos d2 d1 d0) : s.tlvLen pos = 100 * d2 + 10 * d1 + d0 := by
  obtain ⟨h2, h1, h0, -⟩ := h
  rw [State.tlvLen, decValue_readBytes]
  simp only [Finset.sum_range_succ, Finset.sum_range_zero, Nat.add_assoc, Nat.add_zero, Nat.reduceAdd, h2, h1, h0]
  omega

/-- A length byte is named by its distance from POS, 2 to 4 (43_field_marshal.md R229). -/
theorem not_tlvLength_all_isDigit (h : ∃ k, 2 ≤ k ∧ k ≤ 4 ∧
    ((s.readByte .pbuf (pos + k)).toNat < 0x30 ∨ 0x39 < (s.readByte .pbuf (pos + k)).toNat)) :
    ¬ (s.readBytes .pbuf (pos + 2) 3).all isDigit = true := by
  obtain ⟨k, hk2, hk4, hbad⟩ := h
  obtain ⟨i, rfl⟩ := Nat.exists_eq_add_of_le hk2
  rw [not_all_isDigit_readBytes_iff]
  exact ⟨i, by omega, by rwa [Nat.add_assoc]⟩

end

/-- RES_LO and RES_HI of an entry as numbers (43_field_marshal.md R228). -/
theorem setRes_tlvRes_resLo (s : State) {pos : Nat} (h : pos + 5 < 65536) :
    (s.setRes (s.tlvRes pos)).resLo.toNat =
      65536 * (pos + 5) + 256 * (s.readByte .pbuf (pos + 1)).toNat + (s.readByte .pbuf pos).toNat := by
  rw [State.setRes_resLo, State.tlvRes, BitVec.extractLsb'_append_eq_right, toNat_append_add, toNat_append_add,
    toNat_ofNat_of_lt (show pos + Config.tlvHeader < 2 ^ 16 from h)]
  simp only [Config.tlvHeader]
  omega

theorem setRes_tlvRes_resHi (s : State) {pos : Nat} (h : s.tlvLen pos < 2 ^ 32) :
    (s.setRes (s.tlvRes pos)).resHi.toNat = s.tlvLen pos := by
  rw [State.setRes_resHi, State.tlvRes, BitVec.extractLsb'_append_eq_left, toNat_ofNat_of_lt h]

/-- OPB after a move of POS, as a number (43_field_marshal.md R232). -/
theorem setOpbLow_opb_toNat (s : State) {k : Nat} (h : k < 65536) :
    (s.setOpbLow (BitVec.ofNat 16 k)).opb.toNat = 65536 * s.opbHigh.toNat + k := by
  rw [State.setOpbLow_opb, toNat_append_add, toNat_ofNat_of_lt h]
  omega

section
variable {s : State}

theorem exec_tlvnext_bounds (h : 16384 < s.opbHigh.toNat ∨ s.opbHigh.toNat < s.opbLow.toNat) :
    exec .tlvnext s = .next (s.raise .bounds) :=
  exec_of_pseudocode_error (by decide) (if_pos h)

theorem exec_tlvnext_end (hfin : s.opbHigh.toNat ≤ 16384) (h : s.opbLow.toNat = s.opbHigh.toNat) :
    exec .tlvnext s = .next (s.succeed { endOfField := true }) :=
  exec_of_pseudocode_ok (by decide)
    ((if_neg (not_or.2 ⟨Nat.not_lt.2 hfin, Nat.not_lt.2 h.le⟩)).trans (if_pos h))

theorem exec_tlvnext_short (hfin : s.opbHigh.toNat ≤ 16384) (hpos : s.opbLow.toNat < s.opbHigh.toNat)
    (h : s.opbHigh.toNat < s.opbLow.toNat + 5) : exec .tlvnext s = .next (s.raise .truncated) :=
  exec_of_pseudocode_error (by decide)
    ((if_neg (not_or.2 ⟨Nat.not_lt.2 hfin, Nat.not_lt.2 hpos.le⟩)).trans
      ((if_neg hpos.ne).trans (if_pos (Nat.sub_lt_left_of_lt_add hpos.le h))))

/-- Past the header check TLVNEXT judges the length bytes and the value (43_field_marshal.md R228, R229). -/
theorem tlvnextResult_header (hfin : s.opbHigh.toNat ≤ 16384) (h : s.opbLow.toNat + 5 ≤ s.opbHigh.toNat) :
    tlvnextResult s =
      if ¬ (s.readBytes .pbuf (s.opbLow.toNat + 2) 3).all isDigit then .error .badDigit
      else if s.opbLow.toNat + 5 + s.tlvLen s.opbLow.toNat > s.opbHigh.toNat then .error .truncated
      else .ok ({}, (s.setRes (s.tlvRes s.opbLow.toNat)).setOpbLow
        (BitVec.ofNat 16 (s.opbLow.toNat + 5 + s.tlvLen s.opbLow.toNat))) := by
  unfold tlvnextResult
  simp only [Config.bufSize, Config.tlvHeader]
  rw [if_neg (by omega), if_neg (by omega), if_neg (by omega)]

theorem exec_tlvnext_badDigit (hfin : s.opbHigh.toNat ≤ 16384) (h : s.opbLow.toNat + 5 ≤ s.opbHigh.toNat)
    (hbad : ¬ (s.readBytes .pbuf (s.opbLow.toNat + 2) 3).all isDigit = true) :
    exec .tlvnext s = .next (s.raise .badDigit) :=
  exec_of_pseudocode_error (by decide) ((tlvnextResult_header hfin h).trans (if_pos hbad))

theorem exec_tlvnext_overrun (hfin : s.opbHigh.toNat ≤ 16384) (h : s.opbLow.toNat + 5 ≤ s.opbHigh.toNat)
    (hdigits : (s.readBytes .pbuf (s.opbLow.toNat + 2) 3).all isDigit = true)
    (hlen : s.opbHigh.toNat < s.opbLow.toNat + 5 + s.tlvLen s.opbLow.toNat) :
    exec .tlvnext s = .next (s.raise .truncated) :=
  exec_of_pseudocode_error (by decide)
    ((tlvnextResult_header hfin h).trans ((if_neg (not_not.2 hdigits)).trans (if_pos hlen)))

theorem exec_tlvnext_entry (hfin : s.opbHigh.toNat ≤ 16384)
    (hdigits : (s.readBytes .pbuf (s.opbLow.toNat + 2) 3).all isDigit = true)
    (hlen : s.opbLow.toNat + 5 + s.tlvLen s.opbLow.toNat ≤ s.opbHigh.toNat) :
    exec .tlvnext s = .next (((s.setRes (s.tlvRes s.opbLow.toNat)).setOpbLow
      (BitVec.ofNat 16 (s.opbLow.toNat + 5 + s.tlvLen s.opbLow.toNat))).succeed {}) :=
  exec_of_pseudocode_ok (by decide) ((tlvnextResult_header hfin (Nat.le_of_add_right_le hlen)).trans
    ((if_neg (not_not.2 hdigits)).trans (if_neg (Nat.not_lt.2 hlen))))

end

/-! ## The statements -/

/-- Settles O44: the digit string is written at ADDR and read back digit by digit. -/
theorem numencWritesTheDigits : Obligations.NumencWritesTheDigits := by
  intro s src w a v _ hsrc
  obtain rfl : v = (s.numSource src).toNat := by cases src <;> exact hsrc
  refine ⟨fun ha hv => ⟨_, exec_numenc ha hv, rfl, fun k hk => ?_, fun k hk => ?_⟩,
    fun ha => exec_numenc_bounds (Nat.not_le.2 ha), fun ha hv => exec_numenc_outOfRange ha hv⟩
  · rw [readByte_succeed, readByte_writeBytes_inside _ _ _ (digits_getElem? hk),
      digitChar_toNat _ (Nat.mod_lt _ (by decide))]
  · rw [readByte_succeed, readByte_writeBytes_outside _ _ (digits_length ..) hk]

/-- Settles O45: the sum is the number that the field spells, and the digit check is the one byte by byte. -/
theorem numdecReadsTheDigits : Obligations.NumdecReadsTheDigits := by
  intro s w a v _ hsum
  rw [← decValue_readBytes] at hsum
  subst hsum
  refine ⟨fun ha => ⟨fun hdigits => ?_, fun hbad => exec_numdec_badDigit ha (not_all_isDigit_readBytes_iff.2 hbad)⟩,
    fun ha => exec_numdec_bounds (Nat.not_le.2 ha)⟩
  rw [← all_isDigit_readBytes_iff] at hdigits
  refine ⟨fun hv => ⟨_, exec_numdec ha hdigits hv, rfl, ?_⟩, exec_numdec_outOfRange ha hdigits⟩
  rw [res_succeed, State.res_setRes, toNat_ofNat_of_lt hv]

/-- Settles O46: NUMDEC reads the digit string that NUMENC wrote, which spells the value. -/
theorem digitStringRoundTrip : Obligations.DigitStringRoundTrip := by
  intro s src w a _ ha hv
  have hread : ((s.writeBytes .pbuf a.toNat (digits (s.numSource src).toNat w.toNat)).succeed {}).readBytes .pbuf
      a.toNat w.toNat = digits (s.numSource src).toNat w.toNat := by
    rw [readBytes_succeed, readBytes_writeBytes _ _ _ (digits_length ..)]
  have hvalue : decValue (digits (s.numSource src).toNat w.toNat) = (s.numSource src).toNat := by
    rw [decValue_digits, Nat.mod_eq_of_lt hv]
  refine ⟨_, _, exec_numenc ha hv, exec_numdec ha (by rw [hread, digits_all]) ?_, rfl, ?_⟩
  · rw [hread, hvalue]
    exact (s.numSource src).isLt
  · rw [res_succeed, State.res_setRes, hread, hvalue, BitVec.ofNat_toNat, BitVec.setWidth_eq]

/-- Settles O47: the product is exact for a scale of at most 2, else the quotient is rounded by RMODE. -/
theorem minorRoundsTheAmount : Obligations.MinorRoundsTheAmount := by
  rintro s rm sc _ _ rfl
  refine ⟨fun hsc hm => ?_, fun hsc hm => exec_minor_outOfRange (by rwa [minorUnits_exact hsc]), fun hsc => ?_⟩
  · rw [← minorUnits_exact hsc rm] at hm
    refine ⟨_, exec_minor hm, rfl, ?_⟩
    rw [res_succeed, State.res_setRes, toNat_ofNat_of_lt hm, minorUnits_exact hsc, mul_pow_sub_mul_pow hsc]
  · have hpos : 0 < 10 ^ (sc.toNat - 2) := Nat.pow_pos (by decide)
    have hm : minorUnits rm sc.toNat s.opa.toNat < 2 ^ 64 := by
      rw [minorUnits_rounded hsc]
      exact roundUnits_lt rm s.opa.isLt (Nat.le_self_pow (by omega) 10)
    refine ⟨_, exec_minor hm, rfl, ?_⟩
    rw [res_succeed, State.res_setRes, toNat_ofNat_of_lt hm, minorUnits_rounded hsc]
    exact ⟨fun h => h ▸ roundUnits_half hpos, fun h => h ▸ roundUnits_away hpos⟩

/-- Settles O48: each byte of the field is read back from the padded string; the source is read before the write. -/
theorem padFillsTheField : Obligations.PadFillsTheField := by
  intro s j z w a src len _ hopb hsrc
  obtain ⟨rfl, rfl⟩ := opb_range hopb hsrc
  refine ⟨fun hs ha hlen => ⟨_, exec_pad hs ha hlen, rfl, ?_, ?_, fun k hk => ?_⟩,
    fun h => exec_pad_bounds (h.imp Nat.not_le.2 Nat.not_le.2), exec_pad_tooLong⟩
  · rintro rfl
    refine ⟨fun k hk => ?_, fun k h hk => ?_⟩
    · rw [readByte_succeed, readByte_writeBytes_inside _ _ _
        ((padField_left_source (by simpa)).trans (padSource_getElem? hk))]
    · rw [readByte_succeed, readByte_writeBytes_inside _ _ _ (padField_left_pad (by simpa) hk), padByte_eq]
  · rintro rfl
    refine ⟨fun k hk => ?_, fun k hk => ?_⟩
    · rw [readByte_succeed, Nat.add_assoc, ← padSource_length s, readByte_writeBytes_inside _ _ _
        (padField_right_source.trans (padSource_getElem? hk))]
    · rw [readByte_succeed, readByte_writeBytes_inside _ _ _ (padField_right_pad (by simpa)), padByte_eq]
  · rw [readByte_succeed, readByte_writeBytes_outside _ _ (padField_length (by simpa)) hk]

/-- Settles O49: the first NUL of the field, or its absence, gives RES and FLAGS.NUL. -/
theorem fldlenFindsTheFirstNul : Obligations.FldlenFindsTheFirstNul := by
  intro s w a _
  have hw := w.isLt
  refine ⟨fun k ha hk hnul hfirst => ?_, fun ha hnone => ?_, fun ha => exec_fldlen_bounds (Nat.not_le.2 ha)⟩
  · refine ⟨_, exec_fldlen ha (firstNul_readBytes_eq hk hnul hfirst), ?_, ?_⟩
    · rw [decide_eq_true hk]
      rfl
    · rw [res_succeed, State.res_setRes, toNat_ofNat_of_lt (by omega)]
  · refine ⟨_, exec_fldlen ha (firstNul_readBytes_of_none hnone), ?_, ?_⟩
    · rw [decide_eq_false (Nat.lt_irrefl _)]
      rfl
    · rw [res_succeed, State.res_setRes, toNat_ofNat_of_lt (by omega)]

/-- Settles O51: the wire form of a valid date is written and read back field by field. -/
theorem dateencWritesTheDate : Obligations.DateencWritesTheDate := by
  refine fun s a => ⟨fun ha hd => ?_, fun ha => exec_dateenc_bounds (Nat.not_le.2 ha),
    fun ha hd => exec_dateenc_badDate ha (ne_true_of_eq_false hd)⟩
  have hread : ((s.writeBytes .pbuf a.toNat (dateString s.opa)).succeed {}).readBytes .pbuf a.toNat 14 =
      dateString s.opa := by
    rw [readBytes_succeed, readBytes_writeBytes _ _ _ (dateString_length _)]
  refine ⟨_, exec_dateenc ha rfl hd, rfl, ?_, ?_, fun f hf => ?_, fun k hk => ?_⟩
  · rw [← all_isDigit_readBytes_iff, hread, dateString_all]
  · rw [decValue_readBytes_year hread hd, dateYear_eq]
  · rw [decValue_readBytes_dateByte hread hd hf, dateByte_eq]
  · rw [readByte_succeed, readByte_writeBytes_outside _ _ (dateString_length _) hk]

/-- Settles O52: the date value of the field has the number that its digits spell. -/
theorem datedecReadsTheDate : Obligations.DatedecReadsTheDate := by
  refine fun s a => ⟨fun ha hdigits => ?_,
    fun ha hbad => exec_datedec_badDigit ha (not_all_isDigit_readBytes_iff.2 hbad),
    fun ha => exec_datedec_bounds (Nat.not_le.2 ha)⟩
  rw [← all_isDigit_readBytes_iff] at hdigits
  exact ⟨_, dateOfString_readBytes_toNat hdigits,
    fun hd => ⟨_, exec_datedec ha hdigits hd, rfl, State.res_setRes s _⟩,
    fun hd => exec_datedec_badDate ha hdigits (ne_true_of_eq_false hd)⟩

/-- Settles O53: the date value that DATEDEC read has the accepted digits as its wire form. -/
theorem dateRoundTrip : Obligations.DateRoundTrip := by
  intro s t a b h hok hb
  obtain ⟨hdigits, hd, rfl⟩ := accepted_of_exec_datedec h hok
  refine ⟨_, exec_dateenc hb (State.res_setRes s _) hd, rfl, fun k hk => ?_⟩
  rw [readByte_succeed, dateString_dateOfString_readBytes hdigits,
    readByte_writeBytes_inside _ _ _ (readBytes_getElem? s _ _ hk)]

/-- Settles O54: the two halves of RES and OPB are the numbers of the entry at POS. -/
theorem tlvnextReadsAnEntry : Obligations.TlvnextReadsAnEntry := by
  intro s pos fin hopb hpos hfin
  obtain ⟨rfl, rfl⟩ := opb_range hopb hpos
  refine ⟨exec_tlvnext_end hfin, ?_⟩
  rintro _ d2 d1 d0 h2 h1 h0 hd2 hd1 hd0 rfl hend
  have hdigits : TlvLengthDigits s s.opbLow.toNat d2 d1 d0 := ⟨h2, h1, h0, hd2, hd1, hd0⟩
  rw [← tlvLen_eq hdigits] at hend ⊢
  exact ⟨_, exec_tlvnext_entry hfin (tlvLength_all_isDigit hdigits) hend, rfl,
    setRes_tlvRes_resLo s (by omega), setRes_tlvRes_resHi s (by omega), setOpbLow_opb_toNat _ (by omega)⟩

/-- Settles O55: each error's condition is met where the earlier ones are not. -/
theorem tlvnextErrorsInOrder : Obligations.TlvnextErrorsInOrder := by
  intro s pos fin hopb hpos
  obtain ⟨rfl, rfl⟩ := opb_range hopb hpos
  refine ⟨exec_tlvnext_bounds, exec_tlvnext_short,
    fun hfin hhead hbad => exec_tlvnext_badDigit hfin hhead (not_tlvLength_all_isDigit hbad), ?_⟩
  rintro hfin hhead _ d2 d1 d0 h2 h1 h0 hd2 hd1 hd0 rfl hend
  have hdigits : TlvLengthDigits s s.opbLow.toNat d2 d1 d0 := ⟨h2, h1, h0, hd2, hd1, hd0⟩
  rw [← tlvLen_eq hdigits] at hend
  exact exec_tlvnext_overrun hfin hhead (tlvLength_all_isDigit hdigits) hend

end Sys2Proof.Machine
end

section
/-! PROOFS. What a completion that ends with an error leaves of the state, and the statement of 60_exceptions.md that
follows (spec/60_exceptions.md R252, R253). -/

namespace Sys2Proof.Machine

/-- ERR of STATUS is set by every error code (10_state.md R23; 60_exceptions.md R250). -/
theorem err_eq_true_iff {s : State} : s.err = true ↔ s.errcode ≠ .none := by
  unfold State.err
  cases s.errcode <;> decide

/-- A command whose completion ends with an error has raised it, with NAK for DECODE and CHECK alone. -/
theorem eq_raise_of_exec_error {i : Instr} {s t : State} (h : exec i s = .next t) (herr : t.errcode ≠ .none) :
    t = if JudgesFrame i then s.raiseNak t.errcode else s.raise t.errcode := by
  rw [exec_eq_commit] at h
  obtain rfl := Host.Outcome.next.inj h
  cases hr : pseudocode i s with
  | error e => split <;> rfl
  | ok p =>
    rw [hr] at herr
    refine absurd ?_ herr
    split <;> rfl

/-- The two ways of raising an error differ in REPLY alone. -/
theorem ite_raiseNak_raise (c : Prop) [Decidable c] (s : State) (e : ErrCode) :
    (if c then s.raiseNak e else s.raise e) =
      { s with errcode := e, flags := {}, busy := false, done := true, reply := if c then 0x15 else s.reply } := by
  split <;> rfl

theorem completeInFlight_command {i : Instr} {s : State} (h : decode s.cmd = .ok i) :
    completeInFlight s = exec i s := by
  rw [completeInFlight, h]

/-! ## The statement -/

/-- Settles O56: an error of a command or of an illegal word is raised from the state at the start of the completion,
and raising writes what R252 lists. -/
theorem errorsArePrecise : Obligations.ErrorsArePrecise := by
  refine ⟨fun i s t h herr => ?_, fun s t h herr => ⟨?_, err_eq_true_iff.2 herr⟩⟩
  · exact (eq_raise_of_exec_error h herr).trans (ite_raiseNak_raise _ s _)
  · cases hdecode : decode s.cmd with
    | ok i =>
      rw [completeInFlight_command hdecode] at h
      simp only [Except.ok.injEq]
      exact (eq_raise_of_exec_error h herr).trans (ite_raiseNak_raise _ s _)
    | error e =>
      rw [completeInFlight_illegal hdecode] at h
      obtain rfl := Host.Outcome.next.inj h
      simp only [reduceCtorEq, or_self, if_false]
      rfl

end Sys2Proof.Machine
end

section
/-! PROOFS. A write to CTRL, and the registers after reset, and the statements of 70_reset_and_hazards.md that follow
(spec/10_state.md R20, R22, R44; spec/70_reset_and_hazards.md R280 to R282). -/

namespace Sys2Proof.Machine

/-! ## SRST and IE of a datum -/

/-- Bit k of a word, from the word's number. -/
theorem getLsbD_eq_decide_div (d : Word) (k : Nat) : d.getLsbD k = decide (d.toNat / 2 ^ k % 2 = 1) :=
  Nat.testBit_eq_decide_div_mod_eq

/-- IE is bit 0 of the datum, which is its parity (10_state.md R22). -/
theorem getLsbD_zero_eq_decide (d : Word) : d.getLsbD 0 = decide (d.toNat % 2 = 1) := by
  rw [getLsbD_eq_decide_div, Nat.pow_zero, Nat.div_one]

theorem getLsbD_one_of_div_two_odd {d : Word} (h : d.toNat / 2 % 2 = 1) : d.getLsbD 1 = true := by
  rw [getLsbD_eq_decide_div, Nat.pow_one, h]
  rfl

theorem getLsbD_one_of_div_two_even {d : Word} (h : d.toNat / 2 % 2 = 0) : d.getLsbD 1 = false := by
  rw [getLsbD_eq_decide_div, Nat.pow_one, h]
  rfl

/-! ## The registers after reset -/

/-- After reset ID reads its constant and every other register 0 (70_reset_and_hazards.md R281). -/
theorem readReg_reset (r : Reg) : readReg r State.reset = if r = .id then 0x46434D07 else 0 := by
  cases r <;> rfl

theorem response_read_reset (r : Reg) :
    (hostAccess (.read .w32 (regOffset r)) State.reset).response =
      some ⟨false, if r = .id then 0x46434D07 else 0⟩ := by
  rw [hostAccess_read_reg, State.respond_response, readReg_reset]

/-! ## The statements -/

/-- Settles O21: by SRST, the write is the store of IE or the soft reset, whose registers are those of R281. -/
theorem ctrlWriteAndSoftReset : Obligations.CtrlWriteAndSoftReset := by
  intro s d
  refine ⟨_, hostAccess_write_ctrl d s, fun hstore => ?_, fun hreset => ?_⟩
  · rw [writeReg_ctrl_store (getLsbD_one_of_div_two_even hstore), getLsbD_zero_eq_decide]
    rfl
  · rw [writeReg_ctrl_reset (getLsbD_one_of_div_two_odd hreset)]
    rfl

/-- Settles O23: the list of the statement is the list of all registers with their readings after reset. -/
theorem resetRegisterValues : Obligations.ResetRegisterValues := by
  refine ⟨fun p hp => ?_, rfl⟩
  obtain ⟨r, -, rfl⟩ : ∃ r ∈ allRegs, (regOffset r, if r = .id then (0x46434D07 : Word) else 0) = p :=
    List.mem_map.1 hp
  exact response_read_reset r

end Sys2Proof.Machine
end

section
/-! PROOFS. One step by the turn it takes, the completion of whatever command is in flight, and the statements about
the step that follow (spec/00_scope.md R15; spec/10_state.md R41; spec/20_memory.md R72; spec/60_exceptions.md R252). -/

namespace Sys2Proof.Machine

/-! ## A step, by its turn -/

section
variable {s : State} {rest : List Turn}

theorem step_unscheduled (h : s.turns = []) : step s = engineTurn s := by
  simp only [step, h]

theorem step_engine (h : s.turns = .engine :: rest) : step s = engineTurn { s with turns := rest } := by
  simp only [step, h]

theorem step_host {a : Access} (h : s.turns = .host a :: rest) :
    step s = .next (hostTurn a { s with turns := rest }) := by
  simp only [step, h]

theorem step_resetInput {level : Bool} (h : s.turns = .resetInput level :: rest) :
    step s = .next (({ s with turns := rest } : State).takeResetLevel level) := by
  simp only [step, h]

theorem engineTurn_busy (h : s.busy = true) : engineTurn s = completeInFlight s := if_pos h

theorem engineTurn_idle (h : s.busy = false) : engineTurn s = .next s := by
  rw [engineTurn, h, if_neg Bool.false_ne_true]

theorem hostTurn_released (h : s.inReset = false) (a : Access) : hostTurn a s = hostAccess a s := by
  rw [hostTurn, h, if_neg Bool.false_ne_true]

theorem hostTurn_held (h : s.inReset = true) (a : Access) : hostTurn a s = heldAccess a s := if_pos h

theorem step_engine_busy (hbusy : s.busy = true) (h : s.turns = .engine :: rest) :
    step s = completeInFlight { s with turns := rest } :=
  (step_engine h).trans (engineTurn_busy hbusy)

theorem step_engine_idle (hidle : s.busy = false) (h : s.turns = .engine :: rest) :
    step s = .next { s with turns := rest } :=
  (step_engine h).trans (engineTurn_idle hidle)

theorem step_host_released (hreset : s.inReset = false) {a : Access} (h : s.turns = .host a :: rest) :
    step s = .next (hostAccess a { s with turns := rest }) :=
  (step_host h).trans (congrArg _ (hostTurn_released (s := { s with turns := rest }) hreset a))

theorem step_host_held (hreset : s.inReset = true) {a : Access} (h : s.turns = .host a :: rest) :
    step s = .next (heldAccess a { s with turns := rest }) :=
  (step_host h).trans (congrArg _ (hostTurn_held (s := { s with turns := rest }) hreset a))

end

/-! ## The command in flight -/

/-- A command in flight completes, whatever its word: BUSY 0, DONE 1, and what no completion writes stays
(10_state.md R41, R45). -/
theorem exists_completeInFlight (s : State) : ∃ t, completeInFlight s = .next t ∧ t.busy = false ∧ t.done = true ∧
    t.outsideTable = s.outsideTable := by
  cases hdecode : decode s.cmd with
  | ok i =>
    rw [completeInFlight_command hdecode, exec_eq_commit]
    have hexec := exec_eq_commit i s
    exact ⟨_, rfl, (exec_busy_done hexec).1, (exec_busy_done hexec).2, (exec_obeysTable hexec).outside⟩
  | error e => exact ⟨_, completeInFlight_illegal hdecode, rfl, rfl, rfl⟩

/-- The completion takes the engine's turn off the schedule, and keeps IE, CMD and the reset input. -/
theorem exists_step_completion {s : State} {rest : List Turn} (hbusy : s.busy = true)
    (h : s.turns = .engine :: rest) : ∃ t, step s = .next t ∧ t.busy = false ∧ t.done = true ∧ t.turns = rest ∧
      t.cmd = s.cmd ∧ t.ie = s.ie ∧ t.inReset = s.inReset := by
  obtain ⟨t, ht, hidle, hdone, houtside⟩ := exists_completeInFlight { s with turns := rest }
  simp only [State.outsideTable, Prod.mk.injEq] at houtside
  obtain ⟨⟨hie, -, hcmd⟩, -, hreset, -, hrest, -⟩ := houtside
  exact ⟨t, (step_engine_busy hbusy h).trans ht, hidle, hdone, hrest, hcmd, hie, hreset⟩

theorem exists_engineTurn (s : State) : ∃ t, engineTurn s = .next t := by
  cases hbusy : s.busy with
  | false => exact ⟨s, engineTurn_idle hbusy⟩
  | true =>
    obtain ⟨t, ht, -⟩ := exists_completeInFlight s
    exact ⟨t, (engineTurn_busy hbusy).trans ht⟩

/-! ## The statements -/

/-- Settles O6: the engine's turn completes the command in flight, and is not enabled while idle. -/
theorem stepPerformsTheDecodedCommand : Obligations.StepPerformsTheDecodedCommand := by
  refine ⟨fun s i rest hbusy hdecode hturns => ?_, fun s i hbusy hdecode hturns => ?_,
    fun s rest hidle hturns => step_engine_idle hidle hturns, fun s hidle hturns => ?_⟩
  · exact (step_engine_busy hbusy hturns).trans (completeInFlight_command hdecode)
  · rw [step_unscheduled hturns, engineTurn_busy hbusy, completeInFlight_command hdecode]
  · rw [step_unscheduled hturns, engineTurn_idle hidle]

/-- Settles O7: the access is made while the reset input is released; a held write changes the response, and at most
loses the buffers. -/
theorem stepMakesTheHostAccess : Obligations.StepMakesTheHostAccess := by
  intro s a rest hturns
  refine ⟨fun hreset => step_host_released hreset hturns, fun hreset => ?_⟩
  rw [step_host_held hreset hturns]
  refine ⟨fun w o ha => by rw [ha, heldAccess], fun w o d _ => ⟨_, rfl, ?_⟩⟩
  obtain ⟨error, data, hheld | hheld⟩ := heldAccess_cases a { s with turns := rest }
  · rw [hheld]
    exact ⟨rfl, .inl ⟨rfl, rfl, rfl⟩⟩
  · rw [hheld]
    exact ⟨rfl, .inr fun b k => by cases b <;> rfl⟩

/-- Settles O8: each kind of turn, and the empty schedule, has a next state. -/
theorem noStepStops : Obligations.NoStepStops := by
  intro s
  cases hturns : s.turns with
  | nil => exact step_unscheduled hturns ▸ exists_engineTurn s
  | cons turn rest =>
    cases turn with
    | host a => exact ⟨_, step_host hturns⟩
    | engine => exact step_engine hturns ▸ exists_engineTurn _
    | resetInput level => exact ⟨_, step_resetInput hturns⟩

/-- Settles O9: the engine's turn completes the command, which keeps IE, CMD and the schedule. -/
theorem commandInFlightCompletes : Obligations.CommandInFlightCompletes := by
  intro s rest hbusy hturns
  obtain ⟨t, hstep, hidle, hdone, hrest, hcmd, hie, -⟩ := exists_step_completion hbusy hturns
  exact ⟨t, hstep, hidle, hdone, hrest, hcmd, hie⟩

end Sys2Proof.Machine
end

section
/-! PROOFS. The block is either running, with six clauses of the invariant to keep, or held in reset, in a state that
R281 fixes; what each agent's turn does to either, and the statements on the invariant and on the reset input
(spec/10_state.md R23, R31 to R33, R41, R42; spec/70_reset_and_hazards.md R280, R281; log 2). -/

namespace Sys2Proof.Machine

/-! ## Buffers, REPLY and LENFIELD -/

/-- The clauses of the invariant about what a command's pseudocode writes. -/
structure SoundContents (s : State) : Prop where
  pbuf : s.pbuf.wf
  fbuf : s.fbuf.wf
  reply : ReplyLegal s
  lenfield : LenfieldConsistent s

theorem lenfieldConsistent_of_eq_zero {s : State} (h : s.lenfield = 0) : LenfieldConsistent s := by
  rw [LenfieldConsistent, h]
  decide

namespace SoundContents

variable {s : State}

theorem setRes (h : SoundContents s) (v : BitVec 64) : SoundContents (s.setRes v) := { h with }

theorem setOpbLow (h : SoundContents s) (v : BitVec 16) : SoundContents (s.setOpbLow v) := { h with }

theorem setFlen (h : SoundContents s) (n : BitVec 16) : SoundContents { s with flen := n } := { h with }

theorem setPlen (h : SoundContents s) (n : BitVec 16) : SoundContents { s with plen := n } := { h with }

/-- A write inside a buffer keeps both buffers canonical (log 2). -/
theorem writeBytes (h : SoundContents s) (b : Buf) {a : Nat} {bytes : List Byte} (hfit : inBounds a bytes.length) :
    SoundContents (s.writeBytes b a bytes) := by
  cases b with
  | pbuf => exact { h with pbuf := writeCells_wf s.pbuf a bytes h.pbuf hfit }
  | fbuf => exact { h with fbuf := writeCells_wf s.fbuf a bytes h.fbuf hfit }

/-- A judged frame answers ACK or NAK, and VALUE of LENFIELD is the reading of RAW (10_state.md R31, R33). -/
theorem judgeFrame (h : SoundContents s) (n : Nat) : SoundContents (s.judgeFrame n) where
  pbuf := h.pbuf
  fbuf := h.fbuf
  reply := by
    change verdict (s.frameOk n) = 0 ∨ verdict (s.frameOk n) = Config.ack ∨ verdict (s.frameOk n) = Config.nak
    cases s.frameOk n <;> decide
  lenfield := by
    have hvalue : (bcdValue s.frameLen).2 < 2 ^ 16 := by have := bcdValue_le s.frameLen; omega
    change ((BitVec.ofNat 16 (bcdValue s.frameLen).2 ++ s.frameLen).extractLsb' 16 16).toNat =
      (bcdValue ((BitVec.ofNat 16 (bcdValue s.frameLen).2 ++ s.frameLen).extractLsb' 0 16)).2
    rw [BitVec.extractLsb'_append_eq_left, BitVec.extractLsb'_append_eq_right, toNat_ofNat_of_lt hvalue]

end SoundContents

/-! ## The pseudocode of each command -/

/-- The result, when it is no error, has sound contents and sets LENMATCH only with LENBCD (10_state.md R32). -/
def SoundResult : Result → Prop
  | .ok (f, u) => (f.lenmatch = true → f.lenbcd = true) ∧ SoundContents u
  | .error _ => True

namespace SoundResult

/-- A result without LENMATCH. -/
theorem ok {f : Flags} {u : State} (h : SoundContents u) (hf : f.lenmatch = false) : SoundResult (.ok (f, u)) :=
  ⟨fun hmatch => absurd (hf.symm.trans hmatch) Bool.false_ne_true, h⟩

/-- A check that raises an error when it fails. -/
theorem guarded {c : Prop} [Decidable c] {e : ErrCode} {r : Result} (h : ¬ c → SoundResult r) :
    SoundResult (if c then .error e else r) := by
  split
  · trivial
  · exact h ‹_›

theorem ite {c : Prop} [Decidable c] {r r' : Result} (h : SoundResult r) (h' : SoundResult r') :
    SoundResult (if c then r else r') := by
  split
  · exact h
  · exact h'

/-- The judgement of a frame whose length is legal. -/
theorem checkFlen {s u : State} {n : Nat} (hu : 5 ≤ n → n ≤ 16384 → SoundContents u) :
    SoundResult (checkFlen n (s.frameFlags n, u)) :=
  guarded fun hmax => guarded fun hmin =>
    ⟨fun hmatch => (Bool.and_eq_true_iff.1 hmatch).1, hu (Nat.not_lt.1 hmin) (Nat.not_lt.1 hmax)⟩

section
variable {s : State} (h : SoundContents s)
include h

theorem setRes {f : Flags} {v : BitVec 64} (hf : f.lenmatch = false) : SoundResult (.ok (f, s.setRes v)) :=
  ok (h.setRes v) hf

theorem fromBcd (r : BitVec 16) : SoundResult (fromBcd s r) := ite (setRes h rfl) trivial

/-- ENCODE's frame fits FBUF, since a payload has at most 9999 bytes (40_frame_codec.md R122). -/
theorem encode : SoundResult (encodeResult s) := by
  refine guarded fun hplen => ok (((h.writeBytes .fbuf ?_).setFlen _).setRes _) rfl
  have hmax : s.plen.toNat ≤ 9999 := Nat.not_lt.1 hplen
  change 0 + (frameOf s.payload).length ≤ 16384
  rw [frameOf_length, payload_length]
  omega

/-- DECODE's payload fits PBUF, since the frame fitted FBUF (40_frame_codec.md R127). -/
theorem decode : SoundResult (decodeResult s) := by
  refine checkFlen fun _ hmax => ((h.judgeFrame _).writeBytes .pbuf ?_).setPlen _
  change 0 + (s.readBytes .fbuf 3 (s.flen.toNat - 5)).length ≤ 16384
  rw [readBytes_length]
  omega

theorem bcdst (a : Nat) : SoundResult (bcdstResult a s) :=
  guarded fun hfit => guarded fun _ => ok ((h.writeBytes .pbuf (not_not.1 hfit)).setRes _) rfl

theorem numenc (src : NumSrc) (w a : Nat) : SoundResult (numencResult src w a s) :=
  guarded fun hfit => guarded fun _ => ok (h.writeBytes .pbuf (by rw [digits_length]; exact not_not.1 hfit)) rfl

theorem pad (rjust : Justify) (padz : PadChar) (w a : Nat) : SoundResult (padResult rjust padz w a s) := by
  refine guarded fun hfit => guarded fun hlen => ok (h.writeBytes .pbuf ?_) rfl
  rw [padField_length (by rw [readBytes_length]; exact Nat.not_lt.1 hlen)]
  exact not_not.1 fun hout => hfit (.inr hout)

theorem dateenc (a : Nat) : SoundResult (dateencResult a s) :=
  guarded fun hfit => guarded fun _ => ok (h.writeBytes .pbuf (by rw [dateString_length]; exact not_not.1 hfit)) rfl

theorem tlvnext : SoundResult (tlvnextResult s) :=
  guarded fun _ => ite (ok h rfl) (guarded fun _ => guarded fun _ => guarded fun _ =>
    ok ((h.setRes _).setOpbLow _) rfl)

end

end SoundResult

/-- Every command's pseudocode keeps the contents sound. -/
theorem soundResult_pseudocode {s : State} (h : SoundContents s) (i : Instr) : SoundResult (pseudocode i s) := by
  cases i with
  | nop => exact .ok h rfl
  | encode => exact .encode h
  | decode => exact .decode h
  | check => exact .checkFlen fun _ _ => h.judgeFrame _
  | lrc b => exact .guarded fun _ => .setRes h rfl
  | verify b => exact .guarded fun _ => .guarded fun _ => .setRes h rfl
  | bcdenc => exact .guarded fun _ => .setRes h rfl
  | bcddec => exact .guarded fun _ => .fromBcd h _
  | bcdst addr => exact .bcdst h _
  | bcdld addr => exact .guarded fun _ => .fromBcd h _
  | numenc src width addr => exact .numenc h src _ _
  | numdec width addr => exact .guarded fun _ => .guarded fun _ => .guarded fun _ => .setRes h rfl
  | minor rmode scale => exact .guarded fun _ => .setRes h rfl
  | pad rjust padz width addr => exact .pad h rjust padz _ _
  | fldlen width addr => exact .guarded fun _ => .setRes h rfl
  | dateenc addr => exact .dateenc h _
  | datedec addr => exact .guarded fun _ => .guarded fun _ => .guarded fun _ => .setRes h rfl
  | tlvnext => exact .tlvnext h

/-! ## A running block -/

/-- The invariant of a block whose reset input is released. -/
structure Running (s : State) : Prop extends SoundContents s where
  released : s.inReset = false
  errorFlags : ErrorClearsFlags s
  busyDone : BusyNotDone s
  matchBcd : MatchNeedsBcd s

namespace Running

variable {s : State}

theorem withTurns (h : Running s) (rest : List Turn) : Running { s with turns := rest } := { h with }

theorem respond (h : Running s) (error : Bool) (data : Word) : Running (s.respond error data) := { h with }

/-! ### Completions -/

theorem raise (h : Running s) (e : ErrCode) : Running (s.raise e) where
  __ := h
  errorFlags _ := rfl
  busyDone hbusy := absurd hbusy Bool.false_ne_true
  matchBcd hmatch := absurd hmatch Bool.false_ne_true

theorem raiseNak (h : Running s) (e : ErrCode) : Running (s.raiseNak e) where
  __ := h.raise e
  reply := .inr (.inr rfl)

theorem exec (h : Running s) {i : Instr} {t : State} (ht : exec i s = .next t) : Running t := by
  have hreleased : t.inReset = s.inReset := congrArg (fun x => x.2.2.1) (exec_obeysTable ht).outside
  rcases exec_cases ht with ⟨e, rfl⟩ | ⟨-, e, rfl⟩ | ⟨f, u, hu, rfl⟩
  · exact h.raise e
  · exact h.raiseNak e
  · obtain ⟨hflags, hcontents⟩ : SoundResult (.ok (f, u)) := hu ▸ soundResult_pseudocode h.toSoundContents i
    exact { hcontents with
      released := hreleased.trans h.released
      errorFlags := fun herr => absurd rfl herr
      busyDone := fun hbusy => absurd hbusy Bool.false_ne_true
      matchBcd := hflags }

theorem engineTurn (h : Running s) {t : State} (ht : engineTurn s = .next t) : Running t := by
  rcases engineTurn_cases s t ht with ⟨-, rfl⟩ | ⟨-, i, -, hexec⟩ | ⟨-, e, -, rfl⟩
  · exact h
  · exact h.exec hexec
  · exact h.raise .illegalCmd

/-! ### Host accesses -/

theorem unlessBusy (h : Running s) {t : State} (ht : Running t) : Running (unlessBusy s t) := by
  rcases unlessBusy_cases s t with ⟨-, hwrite⟩ | ⟨-, hwrite⟩
  · rw [hwrite]
    exact { h with }
  · rwa [hwrite]

theorem issue (h : Running s) (w : Word) : Running (s.issue w) where
  __ := h
  busyDone _ := rfl

theorem writeStatus (h : Running s) (d : Word) : Running (writeStatus d s) where
  __ := h
  busyDone hbusy := by
    change (s.done && !d.getLsbD 1) = false
    rw [h.busyDone hbusy, Bool.false_and]

theorem softReset (h : Running s) : Running s.softReset where
  pbuf := h.pbuf
  fbuf := h.fbuf
  reply := .inl rfl
  lenfield := lenfieldConsistent_of_eq_zero rfl
  released := h.released
  errorFlags _ := rfl
  busyDone _ := rfl
  matchBcd hmatch := absurd hmatch Bool.false_ne_true

theorem writeCtrl (h : Running s) (d : Word) : Running (writeReg .ctrl d s) := by
  cases hd : d.getLsbD 1 with
  | false =>
    rw [writeReg_ctrl_store hd]
    exact { h with }
  | true =>
    rw [writeReg_ctrl_reset hd]
    exact h.softReset

theorem writeReg (h : Running s) (r : Reg) (d : Word) : Running (writeReg r d s) := by
  cases r with
  | ctrl => exact h.writeCtrl d
  | status => exact h.writeStatus d
  | cmd => exact h.unlessBusy (h.issue d)
  | plen | flen | opaLo | opaHi | opb => exact h.unlessBusy { h with }
  | id | errcode | resLo | resHi | lenfield | flags | reply => exact h

theorem writeBytes (h : Running s) (b : Buf) {a : Nat} {bytes : List Byte} (hfit : inBounds a bytes.length) :
    Running (s.writeBytes b a bytes) := by
  have hcontents := h.toSoundContents.writeBytes b hfit
  cases b <;> exact { h with toSoundContents := hcontents }

end Running

/-- An aligned access at a buffer index stays inside the buffer (20_memory.md R63, R65). -/
theorem inBounds_of_aligned {w : Width} {i : Nat} (hi : i < 16384) (h : i % widthBytes w = 0) :
    inBounds i (widthBytes w) := by
  change i + widthBytes w ≤ 16384
  cases w <;> simp only [widthBytes] at h ⊢ <;> omega

/-- The index of a legal access to a buffer is aligned (20_memory.md R65). -/
theorem aligned_of_legalAccess {b : Buf} {i : Nat} {w : Width} (h : legalAccess w (bufBase b + i) = true) :
    i % widthBytes w = 0 := by
  rw [legalAccess_above_registers w (Nat.le_add_right_of_le (bufBase_ge b)), bufBase_add_mod] at h
  exact beq_iff_eq.1 h

/-- Outside the buffers a write to the window is a register's write, or is ignored (20_memory.md R61). -/
theorem writeWindow_outside_buffers {o : Nat} (h : o < 0x4000 ∨ 0xC000 ≤ o) (w : Width) (d : Word) (s : State) :
    (∃ r, writeWindow w o d s = writeReg r d s) ∨ writeWindow w o d s = s := by
  rcases h with h | h
  · cases hr : regAt o with
    | some r =>
      obtain rfl := eq_regOffset_of_regAt hr
      exact .inl ⟨r, writeWindow_register r w d s⟩
    | none => exact .inr (by simp only [writeWindow, regionOf_registers o h, hr])
  · exact .inr (writeWindow_reserved o (.inr h) w d s)

namespace Running

variable {s : State}

theorem writeWindow (h : Running s) {w : Width} {o : Nat} (hlegal : legalAccess w o = true) (d : Word) :
    Running (writeWindow w o d s) := by
  by_cases ho : 0x4000 ≤ o ∧ o < 0xC000
  · obtain ⟨b, i, hi, rfl⟩ := exists_bufBase_add o ho.1 ho.2
    rw [writeWindow_buffer b i hi]
    refine h.unlessBusy (h.writeBytes b ?_)
    rw [bytesOfWord_length]
    exact inBounds_of_aligned hi (aligned_of_legalAccess hlegal)
  · rcases writeWindow_outside_buffers (o := o) (by omega) w d s with ⟨r, hwrite⟩ | hwrite
    · rw [hwrite]
      exact h.writeReg r d
    · rwa [hwrite]

theorem hostAccess (h : Running s) (a : Access) : Running (hostAccess a s) := by
  cases a with
  | read w o =>
    rw [hostAccess_read]
    split <;> exact h.respond _ _
  | write w o d =>
    rw [hostAccess_write]
    split
    · exact (h.writeWindow ‹_› d).respond _ _
    · exact h.respond _ _

end Running

/-! ## A block held in reset -/

/-- The registers of R281, no buffer byte written, and a level of the reset input (70_reset_and_hazards.md R280). -/
def State.afterReset (level : Bool) (epoch : Nat) (turns : List Turn) (response : Option Response) : State :=
  { State.reset with inReset := level, epoch := epoch, turns := turns, response := response }

/-- The block stays in the state that the asserted reset input gives it (70_reset_and_hazards.md R280). -/
abbrev HeldInReset (s : State) : Prop := ∃ epoch turns response, s = .afterReset true epoch turns response

theorem running_afterReset (epoch : Nat) (turns : List Turn) (response : Option Response) :
    Running (.afterReset false epoch turns response) where
  pbuf := ⟨.nil, by simp [State.afterReset, State.reset]⟩
  fbuf := ⟨.nil, by simp [State.afterReset, State.reset]⟩
  reply := .inl rfl
  lenfield := lenfieldConsistent_of_eq_zero rfl
  released := rfl
  errorFlags _ := rfl
  busyDone _ := rfl
  matchBcd hmatch := absurd hmatch Bool.false_ne_true

/-- The invariant says that the block is running, or held in reset. -/
theorem blockInv_iff {s : State} : BlockInv s ↔ Running s ∨ HeldInReset s := by
  constructor
  · rintro ⟨⟨hpbuf, hfbuf⟩, hreply, herror, hbusy, hlenfield, hmatch, hheld⟩
    cases hreset : s.inReset with
    | false => exact .inl ⟨⟨hpbuf, hfbuf, hreply, hlenfield⟩, hreset, herror, hbusy, hmatch⟩
    | true => exact .inr ⟨_, _, _, hheld hreset⟩
  · rintro (h | ⟨epoch, turns, response, rfl⟩)
    · exact ⟨⟨h.pbuf, h.fbuf⟩, h.reply, h.errorFlags, h.busyDone, h.lenfield, h.matchBcd,
        fun hreset => absurd (h.released.symm.trans hreset) Bool.false_ne_true⟩
    · have h := running_afterReset epoch turns response
      exact ⟨⟨h.pbuf, h.fbuf⟩, h.reply, h.errorFlags, h.busyDone, h.lenfield, h.matchBcd, fun _ => rfl⟩

namespace HeldInReset

variable {s : State}

theorem inReset (h : HeldInReset s) : s.inReset = true := by
  obtain ⟨epoch, turns, response, rfl⟩ := h
  rfl

theorem busy (h : HeldInReset s) : s.busy = false := by
  obtain ⟨epoch, turns, response, rfl⟩ := h
  rfl

theorem withTurns (h : HeldInReset s) (rest : List Turn) : HeldInReset { s with turns := rest } := by
  obtain ⟨epoch, turns, response, rfl⟩ := h
  exact ⟨epoch, rest, response, rfl⟩

/-- The registers keep their reset values under any access (70_reset_and_hazards.md R280). -/
theorem heldAccess (h : HeldInReset s) (a : Access) : HeldInReset (heldAccess a s) := by
  obtain ⟨epoch, turns, response, rfl⟩ := h
  obtain ⟨error, data, ha | ha⟩ := heldAccess_cases a (.afterReset true epoch turns response)
  · exact ⟨epoch, turns, some ⟨error, data⟩, ha⟩
  · exact ⟨epoch + 1, turns, some ⟨error, data⟩, ha⟩

theorem hardwareReset (s : State) : HeldInReset (s.hardwareReset true) := ⟨s.epoch + 1, s.turns, Option.none, rfl⟩

end HeldInReset

/-! ## The turns of the schedule -/

namespace BlockInv

variable {s : State}

theorem withTurns (h : BlockInv s) (rest : List Turn) : BlockInv { s with turns := rest } :=
  blockInv_iff.2 ((blockInv_iff.1 h).imp (·.withTurns rest) (·.withTurns rest))

theorem engineTurn (h : BlockInv s) {t : State} (ht : engineTurn s = .next t) : BlockInv t := by
  rcases blockInv_iff.1 h with hrun | hheld
  · exact blockInv_iff.2 (.inl (hrun.engineTurn ht))
  · rw [engineTurn_idle hheld.busy] at ht
    exact Host.Outcome.next.inj ht ▸ h

theorem hostTurn (h : BlockInv s) (a : Access) : BlockInv (hostTurn a s) := by
  rcases blockInv_iff.1 h with hrun | hheld
  · rw [hostTurn_released hrun.released]
    exact blockInv_iff.2 (.inl (hrun.hostAccess a))
  · rw [hostTurn_held hheld.inReset]
    exact blockInv_iff.2 (.inr (hheld.heldAccess a))

theorem takeResetLevel (h : BlockInv s) (level : Bool) : BlockInv (s.takeResetLevel level) := by
  rcases takeResetLevel_cases s level with ⟨-, hreset⟩ | ⟨-, -, hreset⟩
  · rw [hreset]
    cases level with
    | false => exact blockInv_iff.2 (.inl (running_afterReset (s.epoch + 1) s.turns Option.none))
    | true => exact blockInv_iff.2 (.inr (.hardwareReset s))
  · rwa [hreset]

end BlockInv

/-- Until the reset input is released every step leaves the block held in reset (70_reset_and_hazards.md R280). -/
theorem exists_step_of_heldInReset {s : State} (h : HeldInReset s)
    (hkeep : ∀ rest, s.turns ≠ .resetInput false :: rest) : ∃ t, step s = .next t ∧ HeldInReset t := by
  obtain ⟨t, hstep⟩ := noStepStops s
  refine ⟨t, hstep, ?_⟩
  rcases step_cases s t hstep with
    ⟨-, ht⟩ | ⟨rest, ⟨-, ht⟩ | ⟨a, -, rfl⟩ | ⟨level, hturns, rfl⟩⟩
  · rw [engineTurn_idle h.busy] at ht
    exact Host.Outcome.next.inj ht ▸ h
  · rw [engineTurn_idle (h.withTurns rest).busy] at ht
    exact Host.Outcome.next.inj ht ▸ h.withTurns rest
  · rw [hostTurn_held (h.withTurns rest).inReset]
    exact (h.withTurns rest).heldAccess a
  · cases level with
    | false => exact absurd hturns (hkeep rest)
    | true => exact .hardwareReset _

/-- A register that is read while the reset input is asserted returns its reset value. -/
theorem readReg_heldInReset {s : State} (h : HeldInReset s) (r : Reg) : readReg r s = readReg r State.reset := by
  obtain ⟨epoch, turns, response, rfl⟩ := h
  cases r <;> rfl

/-! ## The statements -/

/-- Settles O58: the state after reset is running. -/
theorem invariantAtReset : Obligations.InvariantAtReset :=
  blockInv_iff.2 (.inl (running_afterReset 0 [] Option.none))

/-- Settles O59: by the turn that the step takes. -/
theorem everyStepKeepsTheInvariant : Obligations.EveryStepKeepsTheInvariant := by
  intro s t h hstep
  rcases step_cases s t hstep with
    ⟨-, ht⟩ | ⟨rest, ⟨-, ht⟩ | ⟨a, -, rfl⟩ | ⟨level, -, rfl⟩⟩
  · exact BlockInv.engineTurn h ht
  · exact BlockInv.engineTurn (BlockInv.withTurns h rest) ht
  · exact BlockInv.hostTurn (BlockInv.withTurns h rest) a
  · exact BlockInv.takeResetLevel (BlockInv.withTurns h rest) level

/-- Settles O24: the level asserts the reset input or releases it, and either way resets the block. -/
theorem hardwareResetClearsTheBlock : Obligations.HardwareResetClearsTheBlock := by
  intro s level rest hturns hevent
  refine ⟨_, step_resetInput hturns, ?_⟩
  rcases takeResetLevel_cases { s with turns := rest } level with ⟨-, hreset⟩ | ⟨hlevel, hreleased, -⟩
  · rw [hreset]
    exact ⟨rfl, fun b k => by cases b <;> rfl, rfl⟩
  · rcases hevent with h | h
    · exact absurd (hlevel.symm.trans h) Bool.false_ne_true
    · exact absurd (hreleased.symm.trans h) Bool.false_ne_true

/-- Settles O60: the block stays held in reset, and its registers read as after reset. -/
theorem assertedResetHoldsTheBlock : Obligations.AssertedResetHoldsTheBlock := by
  intro s hinv hreset
  have hheld : HeldInReset s :=
    (blockInv_iff.1 hinv).resolve_left fun hrun => absurd (hrun.released.symm.trans hreset) Bool.false_ne_true
  refine ⟨fun hkeep => ?_, fun rest p hp hturns => ?_⟩
  · obtain ⟨t, hstep, hheld'⟩ := exists_step_of_heldInReset hheld hkeep
    refine ⟨t, hstep, ?_⟩
    obtain ⟨_, _, _, rfl⟩ := hheld
    obtain ⟨_, _, _, rfl⟩ := hheld'
    exact ⟨rfl, rfl, rfl, fun b k => by cases b <;> rfl⟩
  · obtain ⟨r, -, rfl⟩ : ∃ r ∈ allRegs, (regOffset r, if r = .id then (0x46434D07 : Word) else 0) = p :=
      List.mem_map.1 hp
    refine ⟨_, step_host_held hreset hturns, ?_⟩
    rw [heldAccess, hostAccess_read_reg, State.respond_response, readReg_heldInReset (hheld.withTurns rest),
      readReg_reset]

end Sys2Proof.Machine
end

section
/-! PROOFS. Runs of a few steps: a soft reset or a clear of DONE beside a completion, and a frame encoded and decoded;
and the statements that follow (spec/40_frame_codec.md R137; spec/60_exceptions.md R257; spec/70_reset_and_hazards.md
R283). -/

namespace Sys2Proof.Machine

theorem run_succ {s t : State} (h : step s = .next t) (k : Nat) :
    Host.Core.run core (k + 1) s = Host.Core.run core k t := by
  have hstep : core.step s = .next t := h
  simp only [Host.Core.run, hstep]

theorem run_one {s t : State} (h : step s = .next t) : Host.Core.run core 1 s = .next t := run_succ h 0

theorem run_two {s t u : State} (hst : step s = .next t) (htu : step t = .next u) :
    Host.Core.run core 2 s = .next u :=
  (run_succ hst 1).trans (run_one htu)

/-! ## Steps of a block that is not in reset -/

section
variable {s : State} {rest : List Turn}

/-- A write of 1 to DONE clears it and nothing else, since bit 3 of the datum is 0 (10_state.md R23). -/
theorem step_clear_done (hreset : s.inReset = false) (h : s.turns = .host (.write .w32 0x008 2) :: rest) :
    step s = .next (({ s with done := false, turns := rest } : State).respond false 0) := by
  rw [step_host_released hreset h, hostAccess_write_status]
  simp [writeStatus]

theorem step_soft_reset (hreset : s.inReset = false) {d : Word} (hd : d.getLsbD 1 = true)
    (h : s.turns = .host (.write .w32 0x004 d) :: rest) :
    step s = .next (({ s with turns := rest } : State).softReset.respond false 0) := by
  rw [step_host_released hreset h, hostAccess_write_ctrl, writeReg_ctrl_reset hd]

/-- The block with a command issued and the turns of its issue and its completion taken (10_state.md R42). -/
def State.issued (s : State) (w : Word) (rest : List Turn) : State :=
  (({ s with turns := rest } : State).issue w).respond false 0

theorem issued_withTurns (s : State) (w : Word) (turns rest : List Turn) :
    { s.issued w turns with turns := rest } = s.issued w rest := rfl

theorem step_issue (hreset : s.inReset = false) (hidle : s.busy = false) {w : Word}
    (h : s.turns = .host (.write .w32 0x010 w) :: rest) : step s = .next (s.issued w rest) := by
  rw [step_host_released hreset h, hostAccess_write_cmd_idle (s := { s with turns := rest }) hidle, State.issued]

/-- The completion of a word that names a command is that command's. -/
theorem step_command (hbusy : s.busy = true) {i : Instr} (hcmd : decode s.cmd = .ok i)
    (h : s.turns = .engine :: rest) : step s = exec i { s with turns := rest } :=
  (step_engine_busy hbusy h).trans (completeInFlight_command hcmd)

/-- The issue of a command and its completion, as the next two turns (10_state.md R41, R42). -/
theorem run_issue_complete (hreset : s.inReset = false) (hidle : s.busy = false) {w : Word}
    (h : s.turns = .host (.write .w32 0x010 w) :: .engine :: rest) {i : Instr} (hw : decode w = .ok i) {t : State}
    (ht : exec i (s.issued w rest) = .next t) (k : Nat) : Host.Core.run core (k + 2) s = Host.Core.run core k t := by
  have hissue : step s = .next (s.issued w (.engine :: rest)) := step_issue hreset hidle h
  have hcomplete : step (s.issued w (.engine :: rest)) = .next t := by
    rw [step_command (s := s.issued w (.engine :: rest)) rfl hw rfl, issued_withTurns, ht]
  exact (run_succ hissue (k + 1)).trans (run_succ hcomplete k)

end

/-! ## The frame that ENCODE leaves, as DECODE sees it -/

/-- The length field of an encoded frame is the payload's length in packed decimal (40_frame_codec.md R122). -/
theorem encoded_frameLen (s : State) : s.encoded.frameLen = (toBcd s.plen.toNat).1 ++ (toBcd s.plen.toNat).2 := by
  rw [State.frameLen, encoded_body s 0 (by omega), encoded_body s 1 (by omega)]
  simp [frameBody]

theorem decode_word_encode : decode 0x08000000 = .ok .encode := decode_eq_ok_iff.2 ⟨rfl, rfl⟩

theorem decode_word_decode : decode 0x10000000 = .ok .decode := decode_eq_ok_iff.2 ⟨rfl, rfl⟩

/-- The flags 0x1F: checksum, length field and markers are all as they should be (40_frame_codec.md R137). -/
def allFrameFlags : Flags := { ok := true, lenbcd := true, lenmatch := true, stxok := true, etxok := true }

theorem allFrameFlags_word : allFrameFlags.word = 0x1F := by decide

theorem encoded_frameFlags {s : State} (h : s.plen.toNat ≤ 9999) :
    s.encoded.frameFlags (s.plen.toNat + 5) = allFrameFlags := by
  have hfinish : s.encoded.readByte .fbuf (s.plen.toNat + 5 - 2) = Config.etx := encoded_finish s
  rw [State.frameFlags, frameOk_encoded, encoded_frameLen, bcdValue_toBcd h, encoded_start, hfinish]
  simp [judgeFlags, Config.frameOverhead, allFrameFlags]

/-- The state `d` has the buffers and FLEN that ENCODE left, whatever else has been written since. -/
structure KeepsEncoded (s d : State) : Prop where
  pbuf : d.pbuf = s.pbuf
  fbuf : d.fbuf = s.encoded.fbuf
  flen : d.flen = s.encoded.flen
  epoch : d.epoch = s.epoch

theorem keepsEncoded_issued (s : State) (f : Flags) (w : Word) (rest : List Turn) :
    KeepsEncoded s ((s.encoded.succeed f).issued w rest) := ⟨rfl, rfl, rfl, rfl⟩

section
variable {s d : State} (h : KeepsEncoded s d)
include h

theorem readByte_fbuf_of_keepsEncoded (k : Nat) : d.readByte .fbuf k = s.encoded.readByte .fbuf k :=
  readByte_congr s.encoded d .fbuf h.fbuf h.epoch k

theorem frameOk_of_keepsEncoded : d.frameOk (s.plen.toNat + 5) = true := by
  have hlrc := congrArg xorBytes (readBytes_congr s.encoded d .fbuf h.fbuf h.epoch 1 (s.plen.toNat + 5 - 2))
  rw [State.frameOk, State.frameLrc, hlrc, readByte_fbuf_of_keepsEncoded h]
  exact frameOk_encoded s

theorem frameFlags_of_keepsEncoded (hplen : s.plen.toNat ≤ 9999) :
    d.frameFlags (s.plen.toNat + 5) = allFrameFlags := by
  have hlen : d.frameLen = s.encoded.frameLen := by
    rw [State.frameLen, readByte_fbuf_of_keepsEncoded h, readByte_fbuf_of_keepsEncoded h, State.frameLen]
  rw [← encoded_frameFlags hplen, State.frameFlags, frameOk_of_keepsEncoded h, hlen, readByte_fbuf_of_keepsEncoded h,
    readByte_fbuf_of_keepsEncoded h, State.frameFlags, frameOk_encoded]

/-- DECODE copies the payload of the frame back over itself (40_frame_codec.md R137). -/
theorem decoded_readByte_of_keepsEncoded (k : Nat) :
    (d.decoded (s.plen.toNat + 5)).readByte .pbuf k = s.readByte .pbuf k := by
  rw [decoded_readByte, Nat.add_sub_cancel]
  split
  · rw [readByte_fbuf_of_keepsEncoded h, encoded_payload ‹_›]
  · exact readByte_congr s d .pbuf h.pbuf h.epoch k

theorem exec_decode_of_keepsEncoded (hplen : s.plen.toNat ≤ 9999) :
    exec .decode d = .next ((d.decoded (s.plen.toNat + 5)).succeed allFrameFlags) := by
  have hflen : d.flen.toNat = s.plen.toNat + 5 := by rw [h.flen, encoded_flen hplen]
  rw [exec_judgesFrame_ok (.inl rfl) hflen (by omega) (by omega), frameFlags_of_keepsEncoded h hplen]
  rfl

theorem decoded_reply_of_keepsEncoded : (d.decoded (s.plen.toNat + 5)).reply = Config.ack :=
  congrArg verdict (frameOk_of_keepsEncoded h)

end

/-- The issue and the completion of DECODE after an ENCODE (40_frame_codec.md R137). -/
theorem run_decode_encoded {s : State} (f : Flags) {rest : List Turn} (hreset : s.inReset = false)
    (hplen : s.plen.toNat ≤ 9999) (h : s.turns = .host (.write .w32 0x010 0x10000000) :: .engine :: rest) :
    ∃ t : State, Host.Core.run core 2 (s.encoded.succeed f) = .next t ∧ t.turns = rest ∧ t.errcode = .none ∧
      (∀ k, t.readByte .pbuf k = s.readByte .pbuf k) ∧ t.plen = s.plen ∧ t.flags.word = 0x1F ∧ t.reply = 0x06 := by
  have hkeeps := keepsEncoded_issued s f 0x10000000 rest
  have hdecode := exec_decode_of_keepsEncoded hkeeps hplen
  have hrun := run_issue_complete (s := s.encoded.succeed f) hreset rfl h decode_word_decode hdecode 0
  have hbytes := decoded_readByte_of_keepsEncoded hkeeps
  have hreply := decoded_reply_of_keepsEncoded hkeeps
  refine ⟨_, hrun, rfl, rfl, hbytes, ?_, allFrameFlags_word, hreply⟩
  exact BitVec.eq_of_toNat_eq (toNat_ofNat_of_lt (by omega))

/-! ## The statements -/

/-- Settles O22: the reset leaves no command in flight, so the engine's turn does nothing. -/
theorem softResetAbortsTheCommand : Obligations.SoftResetAbortsTheCommand := by
  intro s d rest hreset _ hd hturns
  refine ⟨_, run_two (step_soft_reset hreset hd hturns) (step_engine_idle rfl rfl), rfl, rfl, rfl, rfl, fun b k => ?_⟩
  cases b <;> rfl

/-- Settles O26: the step that comes last decides DONE. -/
theorem bothOrdersOfClearAndCompletion : Obligations.BothOrdersOfClearAndCompletion := by
  refine fun s rest hreset hbusy => ⟨fun hturns => ?_, fun hturns => ?_⟩
  · have hclear := step_clear_done hreset hturns
    obtain ⟨t, hcomplete, hidle, hdone, -⟩ := exists_step_completion (rest := rest)
      (s := ({ s with done := false, turns := .engine :: rest } : State).respond false 0) hbusy rfl
    exact ⟨t, run_two hclear hcomplete, hdone, hidle⟩
  · obtain ⟨t, hcomplete, hidle, -, hturns', -, -, hreset'⟩ := exists_step_completion hbusy hturns
    exact ⟨_, run_two hcomplete (step_clear_done (hreset'.trans hreset) hturns'), rfl, hidle⟩

/-- Settles O33: ENCODE leaves the frame, which DECODE reads back as the payload, its length and a valid verdict. -/
theorem frameRoundTrip : Obligations.FrameRoundTrip := by
  intro s rest hreset hidle hplen hturns
  have hencode := run_issue_complete hreset hidle hturns decode_word_encode (exec_encode hplen) 2
  exact hencode ▸ run_decode_encoded { ok := true } hreset hplen rfl

end Sys2Proof.Machine
end

section
/-! PROOFS. The month lengths and the leap rule of the calendar, and the statement of 43_field_marshal.md R216
(log 11). -/

namespace Sys2Proof.Machine

theorem leapYear_iff {y : Nat} : leapYear y = true ↔ (y % 4 = 0 ∧ y % 100 ≠ 0) ∨ y % 400 = 0 := by
  simp [leapYear]

/-- The month lengths, the four short months and February named (43_field_marshal.md R216). -/
theorem daysInMonth_eq (y : Nat) {mo : Nat} (h₁ : 1 ≤ mo) (h₂ : mo ≤ 12) : daysInMonth y mo =
    if mo ∈ [4, 6, 9, 11] then 30
    else if mo = 2 then (if (y % 4 = 0 ∧ y % 100 ≠ 0) ∨ y % 400 = 0 then 29 else 28) else 31 := by
  interval_cases mo <;> simp [daysInMonth, leapYear_iff]

/-- The fields of a date value whose number is given as a sum (43_field_marshal.md R215). -/
theorem dateFields_of_toNat {d : BitVec 64} {y mo dy h mi se z : Nat}
    (hd : d.toNat = 2 ^ 48 * y + 2 ^ 40 * mo + 2 ^ 32 * dy + 2 ^ 24 * h + 2 ^ 16 * mi + 2 ^ 8 * se + z)
    (hmo : mo < 256) (hdy : dy < 256) (hh : h < 256) (hmi : mi < 256) (hse : se < 256) (hz : z < 256) :
    dateYear d = y ∧ dateMonth d = mo ∧ dateDay d = dy ∧ dateHour d = h ∧ dateMinute d = mi ∧ dateSecond d = se ∧
      (d.extractLsb' 0 8).toNat = z := by
  simp only [dateYear_eq, dateMonth, dateDay, dateHour, dateMinute, dateSecond, extractLsb'_byte_toNat, hd]
  omega

/-- Settles O50: the seven fields are the given numbers, and the month lengths are the table's. -/
theorem dateValidIsGregorian : Obligations.DateValidIsGregorian := by
  intro d y mo dy h mi se z hd hmo hdy hh hmi hse hz
  obtain ⟨hyear, hmonth, hday, hhour, hminute, hsecond, hlast⟩ := dateFields_of_toNat hd hmo hdy hh hmi hse hz
  have hzero : d.extractLsb' 0 8 = 0 ↔ z = 0 := by rw [← BitVec.toNat_inj, hlast]; rfl
  rw [dateValid_iff, hzero, hyear, hmonth, hday, hhour, hminute, hsecond]
  constructor
  · rintro ⟨hz0, ⟨hy₁, hy₂⟩, ⟨hm₁, hm₂⟩, ⟨hd₁, hd₂⟩, hh', hmi', hse'⟩
    exact ⟨hz0, hy₁, hy₂, hm₁, hm₂, hd₁, hh', hmi', hse', daysInMonth_eq y hm₁ hm₂ ▸ hd₂⟩
  · rintro ⟨hz0, hy₁, hy₂, hm₁, hm₂, hd₁, hh', hmi', hse', hd₂⟩
    exact ⟨hz0, ⟨hy₁, hy₂⟩, ⟨hm₁, hm₂⟩, ⟨hd₁, (daysInMonth_eq y hm₁ hm₂).symm ▸ hd₂⟩, hh', hmi', hse'⟩

end Sys2Proof.Machine
end
